-- ==== Sys2Proof/Word.lean ====
section
/-! DEFINITION. Words, bytes and the names of the two units and their buffer memories
(00_scope.md R1, R7, R10; 20_memory.md R60). -/

namespace Sys2Proof

/-- A register, a command word, a buffer address or a length: 32 bits (R5 `REG_WIDTH`, `ADDR_WIDTH`). -/
abbrev Word := BitVec 32

/-- A byte (R10). -/
abbrev Byte := BitVec 8

/-- The two independent units (R1). -/
inductive UnitId where
  | pcu
  | fsu
  deriving DecidableEq, Repr

/-- The two buffer memories (R60): PBM belongs to the PCU, FBM to the FSU. -/
inductive BufId where
  | pbm
  | fbm
  deriving DecidableEq, Repr

/-- The buffer memory a unit owns (R52, R60). -/
def UnitId.buf : UnitId → BufId
  | .pcu => .pbm
  | .fsu => .fbm

/-- `le32(v)`: the four bytes of a word, bits 7:0 first (R10, R70). -/
def le32 (v : Word) : List Byte :=
  [v.extractLsb 7 0, v.extractLsb 15 8, v.extractLsb 23 16, v.extractLsb 31 24]

/-- `be16(v)`: the two bytes of a 16-bit value, bits 15:8 first (R10, R67). -/
def be16 (v : BitVec 16) : List Byte :=
  [v.extractLsb 15 8, v.extractLsb 7 0]

end Sys2Proof
end

