-- ==== Sys2Proof/Config.lean ====
section
/-! DEFINITION. The parameters of 00_scope.md R5, the transport's answers (41_frame_serializer.md R148), and
the free values of the model: opaque constants, so that nothing can be proved of the value one takes. -/

namespace Sys2Proof

/-- The transport's answer to a write attempt (R148): a count, any natural number, or `Fail`. -/
inductive WriteAnswer where
  | count (k : Nat)
  | fail
  deriving DecidableEq, Repr, Inhabited

/-- The transport's answer to a flush (R148). -/
inductive FlushAnswer where
  | ok
  | fail
  deriving DecidableEq, Repr, Inhabited

/-- `HEADER_LEN` (R5): bytes skipped when the header option is set. -/
def Config.headerLen : Nat := 4

/-- `PATH_TERM` (R5): the byte after the path. -/
def Config.pathTerm : Byte := 0x0A#8

/-- `FORBIDDEN` (R5, R140): the bytes a path may not contain, space and newline. -/
def Config.forbidden : List Byte := [0x20#8, 0x0A#8]

/-- The largest byte count a buffer command may name (R106), and the largest buffer size (R5). -/
def Config.maxBytes : Nat := 0xFFFFFFFF

/-- PBM_SIZE less one: OPEN parameter of R5, an unconstrained choice in its whole range (log 5). -/
opaque Config.pbmSizeLessOne : Fin 4294967295

/-- FBM_SIZE less one: OPEN parameter of R5, an unconstrained choice in its whole range (log 5). -/
opaque Config.fbmSizeLessOne : Fin 4294967295

/-- `PBM_SIZE` (R5): some integer with 1 <= PBM_SIZE <= 2^32 - 1. -/
def Config.pbmSize : Nat := Config.pbmSizeLessOne.val + 1

/-- `FBM_SIZE` (R5): some integer with 1 <= FBM_SIZE <= 2^32 - 1. -/
def Config.fbmSize : Nat := Config.fbmSizeLessOne.val + 1

/-- `PCFS_BASE` (R75): OPEN parameter; the spec gives no rule that uses it, and the model none either. DESIGN CHOICE
(log 16): the spec gives it no width or range, and the model types it as a 32-bit word. -/
opaque Config.pcfsBase : Word

/-- FREE VALUE: the transport's answer to a write attempt when State's queue of answers is empty (R160, log 4). -/
opaque Config.writeAnswer : Nat → WriteAnswer

/-- FREE VALUE: the transport's answer to a flush when State's queue of answers is empty (R160, log 4). -/
opaque Config.flushAnswer : Nat → FlushAnswer

/-- FREE VALUE: a word of a command latch after reset, "unspecified (never read while Idle)" (R230, log 6). -/
opaque Config.unspecifiedWord : Nat → Word

end Sys2Proof
end

