-- ==== Sys2Proof/Machine/State.lean ====
section
/-! DEFINITION. The state of the block (10_state.md R54), as plain data, the model's own environment fields beside it,
and the state after reset (70_reset_and_hazards.md R230). -/

namespace Sys2Proof.Machine

/-- Model faults (60_exceptions.md R220): cases the hardware leaves UNPREDICTABLE. All are SAFE: the model stops where
the hardware goes on with some value. -/
inductive Fault where
  /-- A host BMR (R186) or a command (R66) reads a buffer byte that holds no value. Safe. -/
  | unwrittenRead (S : BufId) (addr : Nat)
  /-- A host RD or WR at an offset that is not a multiple of 4 (R181). Safe. -/
  | misalignedRegisterAccess (off : Nat)
  /-- A write answer counts more bytes than were offered, raised by SEND's write step (R161). Safe. -/
  | transportOverrun
  /-- A host BMR or BMW of a byte inside the footprint of a BUSY command (R241). Safe. -/
  | footprintHazard (U : UnitId) (S : BufId) (addr : Nat)
  deriving DecidableEq, Repr

/-- Refusals. No instruction of this model is refused. -/
inductive Refusal where
  /-- An instruction that has no meaning yet: raised only by an arm of `exec` that rejects it by name. Safe. -/
  | notModelled (mnemonic : String)
  deriving DecidableEq, Repr

/-- The error codes of STATUS.ECODE (R200); codes 8 to 15 are never produced and have no name. -/
inductive ECode where
  | none
  | payloadTooSmall
  | invalidPath
  | invalidArguments
  | transportWriteFailed
  | illegalCommand
  | rangeError
  | overlap
  deriving DecidableEq, Repr

/-- The live fields of a STATUS register (R28, R39); bit 3 and bits 31:8 are hardwired 0 (log 13). -/
structure Status where
  busy : Bool
  done : Bool
  ovr : Bool
  ecode : ECode
  deriving DecidableEq, Repr

/-- The PCU bank (R27 to R37). PCU_CMD stores nothing: it reads 0 and its word goes to the latch. -/
structure PcuBank where
  status : Status
  width : Word
  height : Word
  srcAddr : Word
  srcLen : Word
  dstAddr : Word
  /-- PCU_PIX565 bits 15:0 (bits 31:16 are RAZ/WI, R34). -/
  pix565 : BitVec 16
  /-- PCU_RGB888 bits 23:0 (bits 31:24 are RAZ/WI, R35). -/
  rgb888 : BitVec 24
  errActual : Word
  errExpected : Word
  deriving DecidableEq, Repr

/-- The FSU bank (R38 to R47). -/
structure FsuBank where
  status : Status
  pathAddr : Word
  pathLen : Word
  payAddr : Word
  payLen : Word
  frmAddr : Word
  frmLen : Word
  txSent : Word
  txCalls : Word
  deriving DecidableEq, Repr

/-- `lat_PCU` (R48). -/
structure PcuLatch where
  cmd : Word
  width : Word
  height : Word
  srcAddr : Word
  srcLen : Word
  dstAddr : Word
  pix565 : BitVec 16
  rgb888 : BitVec 24
  deriving DecidableEq, Repr

/-- `lat_FSU` (R48). -/
structure FsuLatch where
  cmd : Word
  pathAddr : Word
  pathLen : Word
  payAddr : Word
  payLen : Word
  frmAddr : Word
  frmLen : Word
  deriving DecidableEq, Repr

/-- `phase_PCU` (R48). -/
inductive PcuPhase where
  | idle
  | pending
  deriving DecidableEq, Repr

/-- `phase_FSU` (R48, R49). -/
inductive FsuPhase where
  | idle
  | pending
  | writing
  deriving DecidableEq, Repr

/-- The transport port's events, each with the answer the transport gave (R148). -/
inductive TxEvent where
  | txOpen
  | txWrite (offered : List Byte) (answer : WriteAnswer)
  | txFlush (answer : FlushAnswer)
  | txClose
  deriving DecidableEq, Repr

/-- The host's transactions (R180). An offset is a natural number (log 14); a buffer address is 32 bits. -/
inductive Transaction where
  /-- `RD off` (R182). -/
  | rd (off : Nat)
  /-- `WR off, v` (R183). -/
  | wr (off : Nat) (v : Word)
  /-- `BMR U, addr` (R186). -/
  | bmr (u : UnitId) (addr : Word)
  /-- `BMW U, addr, b` (R187). -/
  | bmw (u : UnitId) (addr : Word) (b : Byte)
  deriving DecidableEq, Repr

/-- What a host read returned (R182, R186), kept as the model's record of the host port (log 10). -/
inductive HostRead where
  | reg (off : Nat) (v : Word)
  | byte (u : UnitId) (addr : Word) (b : Byte)
  deriving DecidableEq, Repr

/-- One step of one agent (R20). The transport's answer is joined to the FSU's step (R151, R154). -/
inductive AgentStep where
  | host (t : Transaction)
  | pcu
  | fsu
  | reset
  deriving DecidableEq, Repr

/-- A buffer memory: the bytes that hold a value, by address, addresses strictly rising. An address that is not
listed holds no value (R60, R65; log 7). -/
abbrev Memory := List Host.Cell

/-- The canonical form of a memory: addresses strictly rising. (No listed byte could equal "no value".) -/
abbrev Memory.wf (m : Memory) : Prop := m.Pairwise (fun x y => x.1 < y.1)

/-- The state of the block: R54's list, then the parameters (log 5), then the environment (logs 2, 4, 10). -/
structure State where
  pcu : PcuBank
  fsu : FsuBank
  phasePcu : PcuPhase
  latPcu : PcuLatch
  phaseFsu : FsuPhase
  latFsu : FsuLatch
  /-- R50: the transport session is open. -/
  txOpen : Bool
  /-- R50, R158: the port events in emission order. -/
  txTrace : List TxEvent
  /-- R51: the model fault record. -/
  mfault : Option Fault
  pbm : Memory
  fbm : Memory
  /-- The parameter PBM_SIZE (R5): no step changes it. -/
  pbmSize : Nat
  /-- The parameter FBM_SIZE (R5): no step changes it. -/
  fbmSize : Nat
  /-- MODEL'S OWN: the agent steps to come, in the run's order (R77, log 2). -/
  agenda : List AgentStep
  /-- MODEL'S OWN: the transport's next answers to write attempts (R160, log 4). -/
  writeAnswers : List WriteAnswer
  /-- MODEL'S OWN: the transport's next answers to flushes (R160, log 4). -/
  flushAnswers : List FlushAnswer
  /-- MODEL'S OWN: how many free values have been drawn (logs 4, 6). -/
  draws : Nat
  /-- MODEL'S OWN: what the host's reads returned, oldest first (log 10). -/
  hostLog : List HostRead
  deriving DecidableEq, Repr

/-- STATUS after reset (R28, R39). -/
def Status.reset : Status := ⟨false, false, false, .none⟩

/-- The PCU bank after reset (R24, R230). -/
def PcuBank.reset : PcuBank := ⟨.reset, 0, 0, 0, 0, 0, 0, 0, 0, 0⟩

/-- The FSU bank after reset (R24, R230). -/
def FsuBank.reset : FsuBank := ⟨.reset, 0, 0, 0, 0, 0, 0, 0, 0⟩

/-- `lat_PCU` after reset: eight free words, from draw `n` on (R230, log 6). -/
def PcuLatch.unspecified (n : Nat) : PcuLatch :=
  ⟨Config.unspecifiedWord n, Config.unspecifiedWord (n + 1), Config.unspecifiedWord (n + 2),
    Config.unspecifiedWord (n + 3), Config.unspecifiedWord (n + 4), Config.unspecifiedWord (n + 5),
    (Config.unspecifiedWord (n + 6)).setWidth 16, (Config.unspecifiedWord (n + 7)).setWidth 24⟩

/-- `lat_FSU` after reset: seven free words, from draw `n` on (R230, log 6). -/
def FsuLatch.unspecified (n : Nat) : FsuLatch :=
  ⟨Config.unspecifiedWord n, Config.unspecifiedWord (n + 1), Config.unspecifiedWord (n + 2),
    Config.unspecifiedWord (n + 3), Config.unspecifiedWord (n + 4), Config.unspecifiedWord (n + 5),
    Config.unspecifiedWord (n + 6)⟩

/-- How many free words a reset draws for the two latches. -/
def latchWords : Nat := 15

/-- The state at the start of a run: the reset state (R230, R231), no fault recorded (R51), an empty trace (log 11), and
an environment that asks for nothing. -/
def State.reset : State where
  pcu := .reset
  fsu := .reset
  phasePcu := .idle
  latPcu := .unspecified 0
  phaseFsu := .idle
  latFsu := .unspecified 8
  txOpen := false
  txTrace := []
  mfault := none
  pbm := []
  fbm := []
  pbmSize := Config.pbmSize
  fbmSize := Config.fbmSize
  agenda := []
  writeAnswers := []
  flushAnswers := []
  draws := latchWords
  hostLog := []

end Sys2Proof.Machine
end

