-- ==== Sys2Proof/Machine/Flags.lean ====
section
/-! DEFINITION. Every computation over the STATUS flags BUSY, DONE, OVR and ECODE
(10_state.md R28, R39; 42_host_port.md R183 to R185; 60_exceptions.md R200, R205, R206). -/

namespace Sys2Proof.Machine

/-- The number of an error code (R200). -/
def ECode.bits : ECode → BitVec 4
  | .none => 0
  | .payloadTooSmall => 1
  | .invalidPath => 2
  | .invalidArguments => 3
  | .transportWriteFailed => 4
  | .illegalCommand => 5
  | .rangeError => 6
  | .overlap => 7

/-- A STATUS register as it reads: ECODE in 7:4, OVR in bit 2, DONE in bit 1, BUSY in bit 0, the rest 0 (R28, R39). -/
def Status.word (st : Status) : Word :=
  0#24 ++ st.ecode.bits ++ 0#1 ++ BitVec.ofBool st.ovr ++ BitVec.ofBool st.done ++ BitVec.ofBool st.busy

/-- The flags at issue (R184): BUSY 1, DONE 0, ECODE 0; OVR is not changed. -/
def Status.issued (st : Status) : Status := { st with busy := true, done := false, ecode := .none }

/-- The flags at completion (R205, R206): BUSY 0, DONE 1, ECODE the outcome; OVR is not changed. -/
def Status.completed (code : ECode) (st : Status) : Status := { st with busy := false, done := true, ecode := code }

/-- The flags after an overrun (R185): OVR 1. -/
def Status.overrun (st : Status) : Status := { st with ovr := true }

/-- The flags after a host write of `v` to STATUS (R183): a 1 in bit 1 clears DONE, a 1 in bit 2 clears OVR, every
other bit is ignored. -/
def Status.cleared (v : Word) (st : Status) : Status :=
  { st with done := st.done && !v.getLsbD 1, ovr := st.ovr && !v.getLsbD 2 }

end Sys2Proof.Machine
end

