-- ==== Sys2Proof/Syntax.lean ====
section
/-! DEFINITION. The commands of the block: one constructor per row of spec/opcode_table.json
(30_encoding.md R82, R83, R89). -/

namespace Sys2Proof

/-- A legal command. No command carries an immediate, a register number or an address (R85): the operands stand in
the unit's latch, and the one operand bit is HDR of DEC_BUF (R84). -/
inductive Instr where
  /-- `PCU.DEC_PIX` (R112). -/
  | decPix
  /-- `PCU.ENC_PIX` (R113). -/
  | encPix
  /-- `PCU.DEC_BUF` (`hdr = false`) and `PCU.DEC_BUF.HDR` (`hdr = true`) (R114). -/
  | decBuf (hdr : Bool)
  /-- `PCU.ENC_BUF` (R115). -/
  | encBuf
  /-- `FSU.BUILD` (R146). -/
  | build
  /-- `FSU.SEND` (R155). -/
  | send
  deriving DecidableEq, Repr

/-- The unit whose CMD register takes the command (R81, R89). -/
def Instr.unit : Instr → UnitId
  | .decPix => .pcu
  | .encPix => .pcu
  | .decBuf _ => .pcu
  | .encBuf => .pcu
  | .build => .fsu
  | .send => .fsu

/-- The assembler's mnemonic, with the optional `.HDR` suffix (R89). -/
def Instr.mnemonic : Instr → String
  | .decPix => "PCU.DEC_PIX"
  | .encPix => "PCU.ENC_PIX"
  | .decBuf false => "PCU.DEC_BUF"
  | .decBuf true => "PCU.DEC_BUF.HDR"
  | .encBuf => "PCU.ENC_BUF"
  | .build => "FSU.BUILD"
  | .send => "FSU.SEND"

end Sys2Proof
end

