-- ==== Sys2Proof/WellFormed.lean ====
section
/-! DEFINITION. Which command words are well formed: the three checks of 30_encoding.md R80, R82 to R84, R87 on the
fields of a word, and the fields each command is written with. -/

namespace Sys2Proof

/-- The fields of the one format, CMD32 (R80). -/
structure CmdFields where
  /-- bits 7:0 -/
  op : BitVec 8
  /-- bit 8 -/
  hdr : Bool
  /-- bits 31:9 -/
  res : BitVec 23
  deriving DecidableEq, Repr

/-- RES must be 0 (R80). -/
def CmdFields.resZero (f : CmdFields) : Bool := f.res == 0#23

/-- The operation codes of a unit (R82, R83). -/
def CmdFields.opKnown (u : UnitId) (f : CmdFields) : Bool :=
  match u with
  | .pcu => [0x01#8, 0x02#8, 0x03#8, 0x04#8].contains f.op
  | .fsu => [0x01#8, 0x02#8].contains f.op

/-- HDR may be 1 only in a PCU DEC_BUF word (R84). -/
def CmdFields.hdrAllowed (u : UnitId) (f : CmdFields) : Bool :=
  !f.hdr || (u == .pcu && f.op == 0x03#8)

/-- The fields of a legal word at unit `u` (R87 names all the others illegal). -/
def CmdFields.wf (u : UnitId) (f : CmdFields) : Bool :=
  f.resZero && f.opKnown u && f.hdrAllowed u

/-- The fields a command is written with (R82 to R84, R89). -/
def Instr.fields : Instr → CmdFields
  | .decPix => ⟨0x01#8, false, 0#23⟩
  | .encPix => ⟨0x02#8, false, 0#23⟩
  | .decBuf hdr => ⟨0x03#8, hdr, 0#23⟩
  | .encBuf => ⟨0x04#8, false, 0#23⟩
  | .build => ⟨0x01#8, false, 0#23⟩
  | .send => ⟨0x02#8, false, 0#23⟩

/-- A command is well formed when its fields are legal at its unit. Every term of `Instr` is: the type has no
operand that could be out of range (Laws/Encoding.lean proves it). -/
def Instr.wf (i : Instr) : Bool := i.fields.wf i.unit

end Sys2Proof
end

