-- ==== Sys2Proof/Decode.lean ====
section
/-! DEFINITION. The decoder, total over every 32-bit word (30_encoding.md R86), rejecting by name, and after it the
encoder (R89). -/

namespace Sys2Proof

/-- Why a word is illegal (R87). -/
inductive Illegal where
  /-- RES, bits 31:9, is not 0. -/
  | reservedBits
  /-- HDR = 1 in a word that is not PCU DEC_BUF. -/
  | headerBit
  /-- The unit has no command with this OP. -/
  | unknownOpcode
  deriving DecidableEq, Repr

/-- What a word decodes to (R86). -/
inductive Decoded where
  | legal (i : Instr)
  | illegal (why : Illegal)
  deriving DecidableEq, Repr

/-- The fields of a word (R80). -/
def fieldsOf (w : Word) : CmdFields :=
  ⟨w.extractLsb 7 0, w.getLsbD 8, w.extractLsb 31 9⟩

/-- A command without a header option: HDR must be 0 (R84). -/
def plainCommand (i : Instr) (hdr : Bool) : Decoded :=
  if hdr then .illegal .headerBit else .legal i

/-- The PCU's opcode map (R82). -/
def decodePcu (op : BitVec 8) (hdr : Bool) : Decoded :=
  if op = 0x01#8 then plainCommand .decPix hdr
  else if op = 0x02#8 then plainCommand .encPix hdr
  else if op = 0x03#8 then .legal (.decBuf hdr)
  else if op = 0x04#8 then plainCommand .encBuf hdr
  else .illegal .unknownOpcode

/-- The FSU's opcode map (R83). -/
def decodeFsu (op : BitVec 8) (hdr : Bool) : Decoded :=
  if op = 0x01#8 then plainCommand .build hdr
  else if op = 0x02#8 then plainCommand .send hdr
  else .illegal .unknownOpcode

/-- `decode(U, w)` (R86). The unit is the CMD register written, not a bit of the word (R81). -/
def decode (u : UnitId) (w : Word) : Decoded :=
  let f := fieldsOf w
  if f.res = 0#23 then
    match u with
    | .pcu => decodePcu f.op f.hdr
    | .fsu => decodeFsu f.op f.hdr
  else .illegal .reservedBits

/-- The word with the given fields (R80): RES in 31:9, HDR in bit 8, OP in 7:0. -/
def wordOf (f : CmdFields) : Word :=
  f.res ++ BitVec.ofBool f.hdr ++ f.op

/-- The command word of a command (R89). -/
def encode (i : Instr) : Word := wordOf i.fields

/-- What the decoder reads from the table's word `w` of `nbits` bits. The table's number does not say which CMD
register takes it (R81): the word is read as a PCU word first and, if it is illegal there, as an FSU word (log 18).
DESIGN CHOICE (log 18): R81 has no word of another length than 32 bits; a shorter number is read with zeros above it,
as the bits the table leaves out are, and a longer one, or one that does not fit in `nbits` bits, is refused. -/
def decodeTableWord (nbits w : Nat) : Option Instr :=
  if nbits ≤ 32 ∧ w < 2 ^ nbits then
    match decode .pcu (BitVec.ofNat 32 w) with
    | .legal i => some i
    | .illegal _ =>
      match decode .fsu (BitVec.ofNat 32 w) with
      | .legal i => some i
      | .illegal _ => none
  else none

end Sys2Proof
end

