-- ==== Sys2Proof/Machine/Operands.lean ====
section
/-! DEFINITION. The operands of the commands, read from the latches (10_state.md R48, 30_encoding.md R85), the range
tests on them (20_memory.md R63, R64; 40_pixel_codec.md R106, R110, R111) and the footprints
(70_reset_and_hazards.md R241). Sizes are natural numbers with no wrap-around (00_scope.md R9). -/

namespace Sys2Proof.Machine

/-- `InRange(S, addr, n)` for a memory of `size` bytes (R63). -/
def inRange (size addr n : Nat) : Bool := n == 0 || decide (addr + n ≤ size)

/-- `Overlaps(a1, n1, a2, n2)` (R64). -/
def overlaps (a1 n1 a2 n2 : Nat) : Bool :=
  decide (0 < n1) && decide (0 < n2) && decide (a1 < a2 + n2) && decide (a2 < a1 + n1)

/-- `N = W * H` (R106). -/
def PcuLatch.pixels (c : PcuLatch) : Nat := c.width.toNat * c.height.toNat

/-- The dimension check of DEC_BUF and ENC_BUF fails (R106). -/
def PcuLatch.badDimensions (c : PcuLatch) : Bool :=
  c.width == 0 || c.height == 0 || decide (Config.maxBytes < 3 * c.pixels)

/-- `hdr_len` (R85, R110). -/
def headerLength (hdr : Bool) : Nat := if hdr then Config.headerLen else 0

/-- `avail := sat_sub(c.SRC_LEN, hdr_len)` (R111): subtraction of naturals saturates at 0. -/
def PcuLatch.available (hdr : Bool) (c : PcuLatch) : Nat := c.srcLen.toNat - headerLength hdr

/-- The first PBM address DEC_BUF reads: the header is skipped (R110). -/
def PcuLatch.streamAddr (hdr : Bool) (c : PcuLatch) : Nat := c.srcAddr.toNat + headerLength hdr

/-- `L = n + 5 + m`, the length of the frame BUILD makes (R142, R146). -/
def FsuLatch.builtLength (c : FsuLatch) : Nat := c.pathLen.toNat + 5 + c.payLen.toNat

/-- The byte ranges (address, length) of an issued PCU command (R241). -/
def pcuFootprint (c : PcuLatch) : List (Nat × Nat) :=
  match decode .pcu c.cmd with
  | .legal .decPix => []
  | .legal .encPix => []
  | .legal (.decBuf _) => [(c.srcAddr.toNat, c.srcLen.toNat), (c.dstAddr.toNat, 3 * c.pixels)]
  | .legal .encBuf => [(c.srcAddr.toNat, c.srcLen.toNat), (c.dstAddr.toNat, 2 * c.pixels)]
  | .legal .build => []
  | .legal .send => []
  | .illegal _ => []

/-- The byte ranges (address, length) of an issued FSU command (R241). -/
def fsuFootprint (c : FsuLatch) : List (Nat × Nat) :=
  match decode .fsu c.cmd with
  | .legal .decPix => []
  | .legal .encPix => []
  | .legal (.decBuf _) => []
  | .legal .encBuf => []
  | .legal .build =>
    [(c.pathAddr.toNat, c.pathLen.toNat), (c.payAddr.toNat, c.payLen.toNat), (c.frmAddr.toNat, c.builtLength)]
  | .legal .send => [(c.frmAddr.toNat, c.frmLen.toNat)]
  | .illegal _ => []

/-- Address `a` lies in one of the ranges. -/
def inRanges (ranges : List (Nat × Nat)) (a : Nat) : Bool :=
  ranges.any fun r => decide (r.1 ≤ a) && decide (a < r.1 + r.2)

end Sys2Proof.Machine
end

