-- ==== Sys2Proof/Machine/Ops.lean ====
section
/-! DEFINITION. The named operations the meanings share: the memory primitives (00_scope.md R11), the outcome of a
step (R14), completion and error (60_exceptions.md R205, R206), the transport's port (41_frame_serializer.md R148, R160)
and issue (42_host_port.md R184). -/

namespace Sys2Proof.Machine

/-! ### Bytes of a memory -/

/-- The value of a byte, or none (R60, R65). -/
def memGet : Memory → Nat → Option Byte
  | [], _ => none
  | (k, b) :: rest, a => if a = k then some b else memGet rest a

/-- Set a byte, keeping the addresses in strictly rising order (R11). -/
def memSet : Memory → Nat → Byte → Memory
  | [], a, b => [(a, b)]
  | (k, v) :: rest, a, b =>
    if a < k then (a, b) :: (k, v) :: rest
    else if a = k then (a, b) :: rest
    else (k, v) :: memSet rest a b

/-- `MemRead(S, addr, n)` (R11), or the lowest address of the range whose byte holds no value (R66, log 8). -/
def memRead (m : Memory) (addr : Nat) : Nat → Except Nat (List Byte)
  | 0 => .ok []
  | n + 1 =>
    match memGet m addr with
    | none => .error addr
    | some b =>
      match memRead m (addr + 1) n with
      | .error a => .error a
      | .ok bs => .ok (b :: bs)

/-- `MemWrite(S, addr, len(s), s)` (R11). -/
def memWrite (m : Memory) (addr : Nat) : List Byte → Memory
  | [] => m
  | b :: bs => memWrite (memSet m addr b) (addr + 1) bs

/-- `S`: the buffer memory by name (R60). -/
def State.buf (s : State) : BufId → Memory
  | .pbm => s.pbm
  | .fbm => s.fbm

/-- `size(S)` (R63). -/
def State.bufSize (s : State) : BufId → Nat
  | .pbm => s.pbmSize
  | .fbm => s.fbmSize

/-- Replace the buffer memory `S`. -/
def State.setBuf (S : BufId) (m : Memory) (s : State) : State :=
  match S with
  | .pbm => { s with pbm := m }
  | .fbm => { s with fbm := m }

/-! ### Outcomes -/

/-- `fault M(reason)` (R14, R51): the record keeps the first fault of a run. -/
def State.recordFault (r : Fault) (s : State) : State :=
  { s with mfault := s.mfault.or (some r) }

/-- The outcome of a step whose effect is `t` (R14): a model fault when one is recorded, else the next state (log 1). -/
def settle (t : State) : Host.Outcome State Fault Refusal :=
  match t.mfault with
  | none => .next t
  | some r => .fault r

/-! ### Completion (R205, R206) -/

/-- What `raise E(info)` names: an error and its info (R200, R202). -/
inductive CmdError where
  | payloadTooSmall (actual expected : Nat)
  | invalidPath
  | invalidArguments
  | transportWriteFailed
  | illegalCommand
  | rangeError
  | overlap
  deriving DecidableEq, Repr

/-- `code(E)` (R200). -/
def CmdError.code : CmdError → ECode
  | .payloadTooSmall _ _ => .payloadTooSmall
  | .invalidPath => .invalidPath
  | .invalidArguments => .invalidArguments
  | .transportWriteFailed => .transportWriteFailed
  | .illegalCommand => .illegalCommand
  | .rangeError => .rangeError
  | .overlap => .overlap

/-- What PCU_ERR_ACTUAL takes (R206): 0 unless the error is PAYLOAD_TOO_SMALL. -/
def CmdError.actual : CmdError → Word
  | .payloadTooSmall a _ => BitVec.ofNat 32 a
  | .invalidPath => 0
  | .invalidArguments => 0
  | .transportWriteFailed => 0
  | .illegalCommand => 0
  | .rangeError => 0
  | .overlap => 0

/-- What PCU_ERR_EXPECTED takes (R206): 0 unless the error is PAYLOAD_TOO_SMALL. -/
def CmdError.expected : CmdError → Word
  | .payloadTooSmall _ e => BitVec.ofNat 32 e
  | .invalidPath => 0
  | .invalidArguments => 0
  | .transportWriteFailed => 0
  | .illegalCommand => 0
  | .rangeError => 0
  | .overlap => 0

/-- The end of a command of unit `u`: the phase goes to Idle, the flags say completed, and a PCU command writes both
ERR registers (R205, R206). DESIGN CHOICE (log 20): R48 leaves the latch's content unspecified while the unit is Idle;
the model keeps the completed command's words there. -/
def finish (u : UnitId) (code : ECode) (actual expected : Word) (s : State) : State :=
  match u with
  | .pcu =>
    { s with
      phasePcu := .idle
      pcu := { s.pcu with status := s.pcu.status.completed code, errActual := actual, errExpected := expected } }
  | .fsu =>
    { s with
      phaseFsu := .idle
      fsu := { s.fsu with status := s.fsu.status.completed code } }

/-- `complete_ok()` of a command of unit `u` (R205). -/
def completeOk (u : UnitId) (s : State) : State := finish u .none 0 0 s

/-- `raise E(info)` in a command of unit `u`: the error completion (R13, R206). An error is the block's only
exception: it saves no state and transfers control nowhere (R211). -/
def raise (u : UnitId) (e : CmdError) (s : State) : State := finish u e.code e.actual e.expected s

/-! ### The transport's port -/

/-- Emit a port event (R148, R158). -/
def State.emit (e : TxEvent) (s : State) : State := { s with txTrace := s.txTrace ++ [e] }

/-- The transport's answer to the write attempt now made (R160): the next one it has ready, else a free value. -/
def State.writeAnswer (s : State) : WriteAnswer :=
  match s.writeAnswers with
  | a :: _ => a
  | [] => Config.writeAnswer s.draws

/-- The state once that answer has been given. -/
def State.takeWriteAnswer (s : State) : State :=
  match s.writeAnswers with
  | _ :: rest => { s with writeAnswers := rest }
  | [] => { s with draws := s.draws + 1 }

/-- The transport's answer to the flush now made (R160). -/
def State.flushAnswer (s : State) : FlushAnswer :=
  match s.flushAnswers with
  | a :: _ => a
  | [] => Config.flushAnswer s.draws

/-- The state once that answer has been given. -/
def State.takeFlushAnswer (s : State) : State :=
  match s.flushAnswers with
  | _ :: rest => { s with flushAnswers := rest }
  | [] => { s with draws := s.draws + 1 }

/-! ### Issue (R184) and the busy flag -/

/-- `x[U_STATUS]`. -/
def State.status (s : State) : UnitId → Status
  | .pcu => s.pcu.status
  | .fsu => s.fsu.status

/-- Replace `x[U_STATUS]`. -/
def State.setStatus (u : UnitId) (st : Status) (s : State) : State :=
  match u with
  | .pcu => { s with pcu := { s.pcu with status := st } }
  | .fsu => { s with fsu := { s.fsu with status := st } }

/-- What `lat_PCU` takes at the issue of word `w` (R48). -/
def PcuBank.latch (b : PcuBank) (w : Word) : PcuLatch :=
  ⟨w, b.width, b.height, b.srcAddr, b.srcLen, b.dstAddr, b.pix565, b.rgb888⟩

/-- What `lat_FSU` takes at the issue of word `w` (R48). -/
def FsuBank.latch (b : FsuBank) (w : Word) : FsuLatch :=
  ⟨w, b.pathAddr, b.pathLen, b.payAddr, b.payLen, b.frmAddr, b.frmLen⟩

/-- Issue of word `w` at unit `u` (R184). The word is not checked here. -/
def issue (u : UnitId) (w : Word) (s : State) : State :=
  match u with
  | .pcu =>
    { s with
      latPcu := s.pcu.latch w
      phasePcu := .pending
      pcu := { s.pcu with status := s.pcu.status.issued } }
  | .fsu =>
    { s with
      latFsu := s.fsu.latch w
      phaseFsu := .pending
      fsu := { s.fsu with status := s.fsu.status.issued, txSent := 0, txCalls := 0 } }

/-- The footprint of the command unit `u` has latched (R241). -/
def State.footprint (s : State) : UnitId → List (Nat × Nat)
  | .pcu => pcuFootprint s.latPcu
  | .fsu => fsuFootprint s.latFsu

/-- A host access to byte `a` of unit `u`'s memory is a footprint hazard (R241): the unit is BUSY, and the byte is
inside the footprint and inside the memory. -/
def State.hazard (s : State) (u : UnitId) (a : Nat) : Bool :=
  (s.status u).busy && decide (a < s.bufSize u.buf) && inRanges (s.footprint u) a

end Sys2Proof.Machine
end

