-- ==== Sys2Proof/Machine/FrameSerializer.lean ====
section
/-! DEFINITION. The FSU's two commands (41_frame_serializer.md R140 to R167): BUILD in one step, SEND as a start step,
write steps and a flush step. -/

namespace Sys2Proof.Machine

/-- `validPath(p)` (R140): no byte is a space or a newline; the empty path is valid (R141). -/
def validPath (p : List Byte) : Bool := !p.any fun b => Config.forbidden.contains b

/-- `frame(p, q)` (R142), with the length field of a 32-bit length register (R144). -/
def frame (path : List Byte) (payLen : Word) (payload : List Byte) : List Byte :=
  path ++ [Config.pathTerm] ++ le32 payLen ++ payload

/-- The effect of `FSU.BUILD` (R146). -/
def buildFrame (s : State) : State :=
  let c := s.latFsu
  let P := c.pathAddr.toNat
  let n := c.pathLen.toNat
  let Q := c.payAddr.toNat
  let m := c.payLen.toNat
  let F := c.frmAddr.toNat
  let L := c.builtLength
  if !inRange s.fbmSize P n then raise .fsu .rangeError s
  else if !inRange s.fbmSize Q m then raise .fsu .rangeError s
  else
    match memRead s.fbm P n with
    | .error a => s.recordFault (.unwrittenRead .fbm a)
    | .ok path =>
      if !validPath path then raise .fsu .invalidPath s
      else if !inRange s.fbmSize F L then raise .fsu .rangeError s
      else if overlaps F L P n || overlaps F L Q m then raise .fsu .overlap s
      else
        match memRead s.fbm Q m with
        | .error a => s.recordFault (.unwrittenRead .fbm a)
        | .ok payload =>
          let t := s.setBuf .fbm (memWrite s.fbm F (frame path c.payLen payload))
          completeOk .fsu { t with fsu := { t.fsu with frmLen := BitVec.ofNat 32 L } }

/-- SEND's start step (R150). -/
def sendStart (s : State) : State :=
  let c := s.latFsu
  if !inRange s.fbmSize c.frmAddr.toNat c.frmLen.toNat then raise .fsu .rangeError s
  else { s.emit .txOpen with txOpen := true, phaseFsu := .writing }

/-- The close of a failed SEND (R153): no flush is issued. -/
def failClose (s : State) : State :=
  raise .fsu .transportWriteFailed { s.emit .txClose with txOpen := false }

/-- What SEND does with the answer to a write attempt that offered `len` bytes (R151 to R153, R161). -/
def sendAccept (len : Nat) (answer : WriteAnswer) (s : State) : State :=
  match answer with
  | .fail => failClose s
  | .count 0 => failClose s
  | .count (k + 1) =>
    if k + 1 ≤ len then
      { s with fsu := { s.fsu with txSent := BitVec.ofNat 32 (s.fsu.txSent.toNat + (k + 1)) } }
    else s.recordFault .transportOverrun

/-- SEND's write step, taken with the transport's answer (R151). -/
def sendWriteWith (answer : WriteAnswer) (s : State) : State :=
  let c := s.latFsu
  let off := s.fsu.txSent.toNat
  match memRead s.fbm (c.frmAddr.toNat + off) (c.frmLen.toNat - off) with
  | .error a => s.recordFault (.unwrittenRead .fbm a)
  | .ok offered =>
    sendAccept offered.length answer
      ({ s with fsu := { s.fsu with txCalls := s.fsu.txCalls + 1 } }.emit (.txWrite offered answer))

/-- SEND's flush step, taken with the transport's answer (R154). -/
def sendFlushWith (answer : FlushAnswer) (s : State) : State :=
  let t : State := { (s.emit (.txFlush answer)).emit .txClose with txOpen := false }
  match answer with
  | .fail => raise .fsu .transportWriteFailed t
  | .ok => completeOk .fsu t

/-- A step of a SEND whose session is open (R167): a write step while the offset is below the frame's length, else the
flush step; the answer is the transport's (R160). -/
def sendContinue (s : State) : State :=
  if s.fsu.txSent.toNat < s.latFsu.frmLen.toNat then sendWriteWith s.writeAnswer s.takeWriteAnswer
  else sendFlushWith s.flushAnswer s.takeFlushAnswer

/-- One step of `FSU.SEND` (R155, R167): in phase Writing the next transport step, else the start step (log 19). -/
def sendStep (s : State) : State :=
  match s.phaseFsu with
  | .writing => sendContinue s
  | .pending => sendStart s
  | .idle => sendStart s

/-- `FSU.BUILD` (R146). -/
def execBuild (s : State) : Host.Outcome State Fault Refusal := settle (buildFrame s)

/-- `FSU.SEND` (R155). -/
def execSend (s : State) : Host.Outcome State Fault Refusal := settle (sendStep s)

end Sys2Proof.Machine
end

