-- ==== Sys2Proof/Machine/Pixel.lean ====
section
/-! DEFINITION. The pixel arithmetic of the PCU (40_pixel_codec.md R100 to R104, R107, R108). -/

namespace Sys2Proof.Machine

/-- An RGB888 triple (R16, R68). -/
structure Rgb where
  r : Byte
  g : Byte
  b : Byte
  deriving DecidableEq, Repr

/-- `red5(v) := (v >> 11) & 0x1F` (R100). -/
def red5 (v : BitVec 16) : BitVec 5 := ((v >>> 11) &&& 0x1F#16).setWidth 5

/-- `green6(v) := (v >> 5) & 0x3F` (R100). -/
def green6 (v : BitVec 16) : BitVec 6 := ((v >>> 5) &&& 0x3F#16).setWidth 6

/-- `blue5(v) := v & 0x1F` (R100). -/
def blue5 (v : BitVec 16) : BitVec 5 := (v &&& 0x1F#16).setWidth 5

/-- `expand5(f) := ((f << 3) | (f >> 2))[7:0]` (R101). -/
def expand5 (f : BitVec 5) : Byte := ((f.setWidth 16 <<< 3) ||| (f.setWidth 16 >>> 2)).setWidth 8

/-- `expand6(f) := ((f << 2) | (f >> 4))[7:0]` (R102). -/
def expand6 (f : BitVec 6) : Byte := ((f.setWidth 16 <<< 2) ||| (f.setWidth 16 >>> 4)).setWidth 8

/-- `dec565(v)` (R103). -/
def dec565 (v : BitVec 16) : Rgb := ⟨expand5 (red5 v), expand6 (green6 v), expand5 (blue5 v)⟩

/-- `enc888(r, g, b) := ((r >> 3) << 11) | ((g >> 2) << 5) | (b >> 3)` (R104). -/
def enc888 (p : Rgb) : BitVec 16 :=
  ((p.r.setWidth 16 >>> 3) <<< 11) ||| ((p.g.setWidth 16 >>> 2) <<< 5) ||| (p.b.setWidth 16 >>> 3)

/-- The live bits of PCU_RGB888 (R35): R in 23:16, G in 15:8, B in 7:0. -/
def Rgb.pack (p : Rgb) : BitVec 24 := p.r ++ p.g ++ p.b

/-- The channels PCU_RGB888 holds (R35). -/
def unpackRgb (v : BitVec 24) : Rgb := ⟨v.extractLsb 23 16, v.extractLsb 15 8, v.extractLsb 7 0⟩

/-- The bytes of an RGB888 value in a buffer (R68). -/
def Rgb.bytes (p : Rgb) : List Byte := [p.r, p.g, p.b]

/-- `(byte0 << 8) | byte1` (R67, R107). -/
def joinBE (hi lo : Byte) : BitVec 16 := (hi.setWidth 16 <<< 8) ||| lo.setWidth 16

/-- `decodeStream(s, N)` with `len(s) = 2*N` (R107): two bytes a pixel, in row-major order. -/
def decodeStream : List Byte → List Byte
  | hi :: lo :: rest => (dec565 (joinBE hi lo)).bytes ++ decodeStream rest
  | [_] => []
  | [] => []

/-- `encodeStream(s, N)` with `len(s) = 3*N` (R108): three bytes a pixel, in row-major order. -/
def encodeStream : List Byte → List Byte
  | r :: g :: b :: rest => be16 (enc888 ⟨r, g, b⟩) ++ encodeStream rest
  | [_, _] => []
  | [_] => []
  | [] => []

end Sys2Proof.Machine
end

