-- ==== Sys2Proof/Machine/PixelCodec.lean ====
section
/-! DEFINITION. The PCU's four commands (40_pixel_codec.md R112 to R115), each the effect of one atomic perform step
(R117) on the operands the latch holds. -/

namespace Sys2Proof.Machine

/-- The effect of `PCU.DEC_PIX` (R112). -/
def decPix (s : State) : State :=
  completeOk .pcu { s with pcu := { s.pcu with rgb888 := (dec565 s.latPcu.pix565).pack } }

/-- The effect of `PCU.ENC_PIX` (R113). -/
def encPix (s : State) : State :=
  completeOk .pcu { s with pcu := { s.pcu with pix565 := enc888 (unpackRgb s.latPcu.rgb888) } }

/-- The checks of a buffer command, in R204's order: dimensions (R106), source range, size (R111), destination range,
overlap of the `need` bytes read from `src` with the `out` bytes written. `avail` is what the source holds for pixels,
`size` is PBM_SIZE. The answer is the first error, or none. -/
def bufferCheck (size : Nat) (c : PcuLatch) (src avail need out : Nat) : Option CmdError :=
  if c.badDimensions then some .invalidArguments
  else if !inRange size c.srcAddr.toNat c.srcLen.toNat then some .rangeError
  else if avail < need then some (.payloadTooSmall avail need)
  else if !inRange size c.dstAddr.toNat out then some .rangeError
  else if overlaps src need c.dstAddr.toNat out then some .overlap
  else none

/-- The last part of a buffer command, its checks passed: read `n` bytes of PBM from `src`, write what `f` makes of
them at `dst`, and complete (R114, R115); a byte with no value is a model fault (R66). -/
def convert (f : List Byte → List Byte) (src n dst : Nat) (s : State) : State :=
  match memRead s.pbm src n with
  | .error a => s.recordFault (.unwrittenRead .pbm a)
  | .ok bytes => completeOk .pcu (s.setBuf .pbm (memWrite s.pbm dst (f bytes)))

/-- The effect of `PCU.DEC_BUF` and `PCU.DEC_BUF.HDR` (R114). -/
def decBuf (hdr : Bool) (s : State) : State :=
  let c := s.latPcu
  let src := c.streamAddr hdr
  let need := 2 * c.pixels
  match bufferCheck s.pbmSize c src (c.available hdr) need (3 * c.pixels) with
  | some e => raise .pcu e s
  | none => convert decodeStream src need c.dstAddr.toNat s

/-- The effect of `PCU.ENC_BUF` (R115): there is no header, so what the source holds is SRC_LEN bytes. -/
def encBuf (s : State) : State :=
  let c := s.latPcu
  let src := c.srcAddr.toNat
  let need := 3 * c.pixels
  match bufferCheck s.pbmSize c src c.srcLen.toNat need (2 * c.pixels) with
  | some e => raise .pcu e s
  | none => convert encodeStream src need c.dstAddr.toNat s

/-- `PCU.DEC_PIX` (R112). -/
def execDecPix (s : State) : Host.Outcome State Fault Refusal := settle (decPix s)

/-- `PCU.ENC_PIX` (R113). -/
def execEncPix (s : State) : Host.Outcome State Fault Refusal := settle (encPix s)

/-- `PCU.DEC_BUF`, `PCU.DEC_BUF.HDR` (R114). -/
def execDecBuf (hdr : Bool) (s : State) : Host.Outcome State Fault Refusal := settle (decBuf hdr s)

/-- `PCU.ENC_BUF` (R115). -/
def execEncBuf (s : State) : Host.Outcome State Fault Refusal := settle (encBuf s)

end Sys2Proof.Machine
end

