-- ==== Sys2Proof/Machine/Dispatch.lean ====
section
/-! DEFINITION. The dispatch of a decoded command to its meaning (40_pixel_codec.md R117,
41_frame_serializer.md R167): one arm per constructor. -/

namespace Sys2Proof.Machine

def exec (i : Instr) (s : State) : Host.Outcome State Fault Refusal :=
  match i with
  | .decPix => Sys2Proof.Machine.execDecPix s
  | .encPix => Sys2Proof.Machine.execEncPix s
  | .decBuf hdr => Sys2Proof.Machine.execDecBuf hdr s
  | .encBuf => Sys2Proof.Machine.execEncBuf s
  | .build => Sys2Proof.Machine.execBuild s
  | .send => Sys2Proof.Machine.execSend s

end Sys2Proof.Machine
end

