-- ==== Sys2Proof/Machine/HostPort.lean ====
section
/-! DEFINITION. The register map (10_state.md R24 to R47) and the host's transactions (42_host_port.md R180 to R189). -/

namespace Sys2Proof.Machine

/-- The registers of the map (R24). -/
inductive Reg where
  | pcuCmd
  | pcuStatus
  | pcuWidth
  | pcuHeight
  | pcuSrcAddr
  | pcuSrcLen
  | pcuDstAddr
  | pcuPix565
  | pcuRgb888
  | pcuErrActual
  | pcuErrExpected
  | fsuCmd
  | fsuStatus
  | fsuPathAddr
  | fsuPathLen
  | fsuPayAddr
  | fsuPayLen
  | fsuFrmAddr
  | fsuFrmLen
  | fsuTxSent
  | fsuTxCalls
  deriving DecidableEq, Repr

/-- The access types of R24, R25. -/
inductive Access where
  | rw
  | ro
  | wo
  /-- RO with write-1-to-clear bits: STATUS. -/
  | roW1c
  deriving DecidableEq, Repr

/-- The offset of a register (R24). -/
def Reg.offset : Reg → Nat
  | .pcuCmd => 0x00
  | .pcuStatus => 0x04
  | .pcuWidth => 0x08
  | .pcuHeight => 0x0C
  | .pcuSrcAddr => 0x10
  | .pcuSrcLen => 0x14
  | .pcuDstAddr => 0x18
  | .pcuPix565 => 0x1C
  | .pcuRgb888 => 0x20
  | .pcuErrActual => 0x24
  | .pcuErrExpected => 0x28
  | .fsuCmd => 0x40
  | .fsuStatus => 0x44
  | .fsuPathAddr => 0x48
  | .fsuPathLen => 0x4C
  | .fsuPayAddr => 0x50
  | .fsuPayLen => 0x54
  | .fsuFrmAddr => 0x58
  | .fsuFrmLen => 0x5C
  | .fsuTxSent => 0x60
  | .fsuTxCalls => 0x64

/-- The access type of a register (R24). -/
def Reg.access : Reg → Access
  | .pcuCmd => .wo
  | .pcuStatus => .roW1c
  | .pcuWidth => .rw
  | .pcuHeight => .rw
  | .pcuSrcAddr => .rw
  | .pcuSrcLen => .rw
  | .pcuDstAddr => .rw
  | .pcuPix565 => .rw
  | .pcuRgb888 => .rw
  | .pcuErrActual => .ro
  | .pcuErrExpected => .ro
  | .fsuCmd => .wo
  | .fsuStatus => .roW1c
  | .fsuPathAddr => .rw
  | .fsuPathLen => .rw
  | .fsuPayAddr => .rw
  | .fsuPayLen => .rw
  | .fsuFrmAddr => .rw
  | .fsuFrmLen => .rw
  | .fsuTxSent => .ro
  | .fsuTxCalls => .ro

/-- Every register, in the map's order. -/
def allRegs : List Reg :=
  [.pcuCmd, .pcuStatus, .pcuWidth, .pcuHeight, .pcuSrcAddr, .pcuSrcLen, .pcuDstAddr, .pcuPix565, .pcuRgb888,
    .pcuErrActual, .pcuErrExpected, .fsuCmd, .fsuStatus, .fsuPathAddr, .fsuPathLen, .fsuPayAddr, .fsuPayLen,
    .fsuFrmAddr, .fsuFrmLen, .fsuTxSent, .fsuTxCalls]

/-- `reg(off)`: the register at an offset, or none where the map is RAZ/WI (R26). -/
def regAt (off : Nat) : Option Reg := allRegs.find? fun r => r.offset == off

/-- `x[NAME]` as it reads, reserved bits as 0 (R12, R182). A CMD register reads as 0 (R27, R38). -/
def State.readReg (s : State) : Reg → Word
  | .pcuCmd => 0
  | .pcuStatus => s.pcu.status.word
  | .pcuWidth => s.pcu.width
  | .pcuHeight => s.pcu.height
  | .pcuSrcAddr => s.pcu.srcAddr
  | .pcuSrcLen => s.pcu.srcLen
  | .pcuDstAddr => s.pcu.dstAddr
  | .pcuPix565 => s.pcu.pix565.setWidth 32
  | .pcuRgb888 => s.pcu.rgb888.setWidth 32
  | .pcuErrActual => s.pcu.errActual
  | .pcuErrExpected => s.pcu.errExpected
  | .fsuCmd => 0
  | .fsuStatus => s.fsu.status.word
  | .fsuPathAddr => s.fsu.pathAddr
  | .fsuPathLen => s.fsu.pathLen
  | .fsuPayAddr => s.fsu.payAddr
  | .fsuPayLen => s.fsu.payLen
  | .fsuFrmAddr => s.fsu.frmAddr
  | .fsuFrmLen => s.fsu.frmLen
  | .fsuTxSent => s.fsu.txSent
  | .fsuTxCalls => s.fsu.txCalls

/-- What a read of offset `off` returns (R182): 0 where no register is. -/
def State.readOffset (s : State) (off : Nat) : Word :=
  match regAt off with
  | some r => s.readReg r
  | none => 0

/-- A host write of a CMD register: issue, or overrun while BUSY (R184, R185). -/
def writeCmd (u : UnitId) (w : Word) (s : State) : State :=
  if (s.status u).busy then s.setStatus u (s.status u).overrun else issue u w s

/-- A host write of a STATUS register (R183). -/
def writeStatus (u : UnitId) (v : Word) (s : State) : State :=
  s.setStatus u ((s.status u).cleared v)

/-- A host write of word `v` to a register (R183): RO registers ignore it. -/
def writeReg (r : Reg) (v : Word) (s : State) : State :=
  match r with
  | .pcuCmd => writeCmd .pcu v s
  | .pcuStatus => writeStatus .pcu v s
  | .pcuWidth => { s with pcu := { s.pcu with width := v } }
  | .pcuHeight => { s with pcu := { s.pcu with height := v } }
  | .pcuSrcAddr => { s with pcu := { s.pcu with srcAddr := v } }
  | .pcuSrcLen => { s with pcu := { s.pcu with srcLen := v } }
  | .pcuDstAddr => { s with pcu := { s.pcu with dstAddr := v } }
  | .pcuPix565 => { s with pcu := { s.pcu with pix565 := v.extractLsb 15 0 } }
  | .pcuRgb888 => { s with pcu := { s.pcu with rgb888 := v.extractLsb 23 0 } }
  | .pcuErrActual => s
  | .pcuErrExpected => s
  | .fsuCmd => writeCmd .fsu v s
  | .fsuStatus => writeStatus .fsu v s
  | .fsuPathAddr => { s with fsu := { s.fsu with pathAddr := v } }
  | .fsuPathLen => { s with fsu := { s.fsu with pathLen := v } }
  | .fsuPayAddr => { s with fsu := { s.fsu with payAddr := v } }
  | .fsuPayLen => { s with fsu := { s.fsu with payLen := v } }
  | .fsuFrmAddr => { s with fsu := { s.fsu with frmAddr := v } }
  | .fsuFrmLen => { s with fsu := { s.fsu with frmLen := v } }
  | .fsuTxSent => s
  | .fsuTxCalls => s

/-- The model's record of a value the host's read returned (log 10). -/
def State.returned (e : HostRead) (s : State) : State := { s with hostLog := s.hostLog ++ [e] }

/-- `RD off` (R181, R182). -/
def hostRd (off : Nat) (s : State) : State :=
  if off % 4 = 0 then s.returned (.reg off (s.readOffset off))
  else s.recordFault (.misalignedRegisterAccess off)

/-- `WR off, v` (R181, R183): no effect where no register is (R26). -/
def hostWr (off : Nat) (v : Word) (s : State) : State :=
  if off % 4 = 0 then
    match regAt off with
    | some r => writeReg r v s
    | none => s
  else s.recordFault (.misalignedRegisterAccess off)

/-- `BMR U, addr` (R186), with the footprint hazard of R241, which is looked for first (log 9). -/
def hostBmr (u : UnitId) (addr : Word) (s : State) : State :=
  let a := addr.toNat
  if s.bufSize u.buf ≤ a then s.returned (.byte u addr 0)
  else if s.hazard u a then s.recordFault (.footprintHazard u u.buf a)
  else
    match memGet (s.buf u.buf) a with
    | none => s.recordFault (.unwrittenRead u.buf a)
    | some b => s.returned (.byte u addr b)

/-- `BMW U, addr, b` (R187), with the footprint hazard of R241. -/
def hostBmw (u : UnitId) (addr : Word) (b : Byte) (s : State) : State :=
  let a := addr.toNat
  if s.bufSize u.buf ≤ a then s
  else if s.hazard u a then s.recordFault (.footprintHazard u u.buf a)
  else s.setBuf u.buf (memSet (s.buf u.buf) a b)

/-- One host transaction (R180). -/
def hostStep (t : Transaction) (s : State) : State :=
  match t with
  | .rd off => hostRd off s
  | .wr off v => hostWr off v s
  | .bmr u addr => hostBmr u addr s
  | .bmw u addr b => hostBmw u addr b s

end Sys2Proof.Machine
end

