-- ==== Sys2Proof/Machine/Reset.lean ====
section
/-! DEFINITION. The reset agent's step (70_reset_and_hazards.md R230 to R234). -/

namespace Sys2Proof.Machine

/-- The release of an open session: reset emits the close event, without a flush (R230, R233). -/
def State.closeSession (s : State) : State :=
  if s.txOpen then { s.emit .txClose with txOpen := false } else s

/-- Reset (R230): every register at its reset value, both phases Idle, the latches unspecified (log 6), every buffer
byte without a value, an open session closed. `mfault`, the trace and the parameters are kept. -/
def resetBlock (s : State) : State :=
  { s.closeSession with
    pcu := .reset
    fsu := .reset
    phasePcu := .idle
    latPcu := .unspecified s.draws
    phaseFsu := .idle
    latFsu := .unspecified (s.draws + 8)
    pbm := []
    fbm := []
    draws := s.draws + latchWords }

end Sys2Proof.Machine
end

