-- ==== Sys2Proof/Machine/Agents.lean ====
section
/-! DEFINITION. One step of each agent (10_state.md R20): the PCU's perform step (40_pixel_codec.md R117), the FSU's
perform dispatch (41_frame_serializer.md R167), the host's transaction and reset. -/

namespace Sys2Proof.Machine

/-- A turn of the PCU (R117). While Idle it has no step, and its turn changes nothing (log 3). -/
def pcuStep (s : State) : Host.Outcome State Fault Refusal :=
  match s.phasePcu with
  | .idle => settle s
  | .pending =>
    match decode .pcu s.latPcu.cmd with
    | .legal i => exec i s
    | .illegal _ => settle (raise .pcu .illegalCommand s)

/-- A turn of the FSU (R167). While Idle it has no step, and its turn changes nothing (log 3). -/
def fsuStep (s : State) : Host.Outcome State Fault Refusal :=
  match s.phaseFsu with
  | .idle => settle s
  | .pending =>
    match decode .fsu s.latFsu.cmd with
    | .legal i => exec i s
    | .illegal _ => settle (raise .fsu .illegalCommand s)
  | .writing => exec .send s

/-- One step of the agent the agenda names (R20). -/
def agentStep (a : AgentStep) (s : State) : Host.Outcome State Fault Refusal :=
  match a with
  | .host t => settle (hostStep t s)
  | .pcu => pcuStep s
  | .fsu => fsuStep s
  | .reset => settle (resetBlock s)

/-- A step when the agenda asks for nothing: a unit that is not Idle runs on, the PCU first; with both Idle the block
waits (R218, R250; log 3). -/
def quietStep (s : State) : Host.Outcome State Fault Refusal :=
  match s.phasePcu with
  | .pending => pcuStep s
  | .idle => fsuStep s

end Sys2Proof.Machine
end

