-- ==== Sys2Proof/Machine/Step.lean ====
section
/-! DEFINITION. The step of the block: one atomic step of one agent (20_memory.md R73, R77). -/

namespace Sys2Proof.Machine

/-- One step (R14, R77): a recorded model fault is kept for the rest of the run (R51); else the agent at the head of
the agenda takes its step, or, with an empty agenda, the units run on. -/
def step (s : State) : Host.Outcome State Fault Refusal :=
  match s.mfault with
  | some r => .fault r
  | none =>
    match s.agenda with
    | [] => quietStep s
    | a :: rest => agentStep a { s with agenda := rest }

/-- `s` with the command word `w` issued at the PCU (R184) and the PCU's turn next, so that the next step performs
exactly it. The block fetches nothing (R22): this stands for the host's write of PCU_CMD. A word of the FSU's rows has
the same number as a PCU word (R81) and is read as the PCU's, as `decodeTableWord` reads it (log 18).
DESIGN CHOICE (log 18): R81 has no word of another length than 32 bits; the low `nbits` bits of `w` are taken, with
zeros above them up to 32 bits and nothing kept beyond bit 31.
DESIGN CHOICE (log 18): BUSY is not looked at, so a word placed while the PCU is BUSY takes the running command's place,
where a host write of PCU_CMD would only set OVR (R185). Placing a word is no part of `step`. -/
def State.withFetchWord (s : State) (nbits w : Nat) : State :=
  { issue .pcu (BitVec.ofNat 32 (w % 2 ^ nbits)) s with agenda := .pcu :: s.agenda }

end Sys2Proof.Machine
end

