-- ==== Sys2Proof/Safety.lean ====
section
/-! DEFINITION. What the claims speak of: the invariant of the block's states, the transport sessions of a trace
(41_frame_serializer.md R149, R159), and the FSU's turns taken one after another. -/

namespace Sys2Proof.Machine

/-- The PCU's part of the invariant (10_state.md R28, R36, R37, R48; 60_exceptions.md R203). -/
structure State.PcuInv (s : State) : Prop where
  busy_iff_active : s.pcu.status.busy = true ↔ s.phasePcu ≠ .idle
  busy_clean : s.pcu.status.busy = true → s.pcu.status.done = false ∧ s.pcu.status.ecode = .none
  err_zero : s.pcu.status.busy = false → s.pcu.status.ecode ≠ .payloadTooSmall →
    s.pcu.errActual = 0 ∧ s.pcu.errExpected = 0
  own_codes : s.pcu.status.ecode ≠ .invalidPath ∧ s.pcu.status.ecode ≠ .transportWriteFailed

/-- The FSU's part of the invariant (R39, R47, R48, R49, R50; R203). -/
structure State.FsuInv (s : State) : Prop where
  busy_iff_active : s.fsu.status.busy = true ↔ s.phaseFsu ≠ .idle
  busy_clean : s.fsu.status.busy = true → s.fsu.status.done = false ∧ s.fsu.status.ecode = .none
  own_codes : s.fsu.status.ecode ≠ .payloadTooSmall ∧ s.fsu.status.ecode ≠ .invalidArguments
  open_iff_writing : s.txOpen = true ↔ s.phaseFsu = .writing
  pending_zero : s.phaseFsu = .pending → s.fsu.txSent = 0 ∧ s.fsu.txCalls = 0
  writing_send : s.phaseFsu = .writing → decode .fsu s.latFsu.cmd = .legal .send
  writing_range : s.phaseFsu = .writing → inRange s.fbmSize s.latFsu.frmAddr.toNat s.latFsu.frmLen.toNat = true
  writing_offset : s.phaseFsu = .writing →
    s.fsu.txCalls.toNat ≤ s.fsu.txSent.toNat ∧ s.fsu.txSent.toNat ≤ s.latFsu.frmLen.toNat

/-- The memories' part of the invariant: the canonical form, every byte inside its memory (R60), the parameters in
their range (00_scope.md R5). -/
structure State.MemInv (s : State) : Prop where
  pbm_wf : s.pbm.wf
  fbm_wf : s.fbm.wf
  pbm_inside : ∀ c ∈ s.pbm, c.1 < s.pbmSize
  fbm_inside : ∀ c ∈ s.fbm, c.1 < s.fbmSize
  pbm_size : 1 ≤ s.pbmSize ∧ s.pbmSize ≤ Config.maxBytes
  fbm_size : 1 ≤ s.fbmSize ∧ s.fbmSize ≤ Config.maxBytes

/-- The invariant of the block's registers, phases and memories. -/
structure State.Inv (s : State) : Prop where
  pcu : s.PcuInv
  fsu : s.FsuInv
  mem : s.MemInv

/-- Where the transport port stands in the session discipline of R149. -/
inductive PortPhase where
  | closed
  | opened
  | flushed
  deriving DecidableEq, Repr

/-- The port after one more event; none when the discipline forbids it there (R149, R153, R154). -/
def portNext : PortPhase → TxEvent → Option PortPhase
  | .closed, .txOpen => some .opened
  | .closed, .txWrite _ _ => none
  | .closed, .txFlush _ => none
  | .closed, .txClose => none
  | .opened, .txOpen => none
  | .opened, .txWrite _ _ => some .opened
  | .opened, .txFlush _ => some .flushed
  | .opened, .txClose => some .closed
  | .flushed, .txOpen => none
  | .flushed, .txWrite _ _ => none
  | .flushed, .txFlush _ => none
  | .flushed, .txClose => some .closed

/-- The port after a whole trace from a closed port; none when some event broke the discipline. -/
def portPhase (trace : List TxEvent) : Option PortPhase :=
  trace.foldl (fun p e => p.bind fun q => portNext q e) (some .closed)

/-- The bytes the transport has taken in a session once one more event is in (R159): the first `k` of the offered bytes
for an answer Count(k), none for a Fail; a new session starts with none. -/
def takenNext (taken : List Byte) : TxEvent → List Byte
  | .txOpen => []
  | .txWrite offered (.count k) => taken ++ offered.take k
  | .txWrite _ .fail => taken
  | .txFlush _ => taken
  | .txClose => taken

/-- The bytes the transport has taken in the trace's last session (R159). -/
def sessionBytes (trace : List TxEvent) : List Byte := trace.foldl takenNext []

/-- The session invariant (R149, R152, R159): the trace is a row of whole sessions and, while one is open, an open one;
and while a SEND is in its loop the transport has taken exactly the frame's first TX_SENT bytes. -/
structure State.SessionInv (s : State) : Prop where
  discipline : portPhase s.txTrace = some (if s.txOpen then .opened else .closed)
  taken : s.phaseFsu = .writing →
    memRead s.fbm s.latFsu.frmAddr.toNat s.fsu.txSent.toNat = .ok (sessionBytes s.txTrace)

/-- The end of a PCU command as R205 and R206 give it: Idle, BUSY 0, DONE 1, ECODE the outcome, OVR unchanged, and
both ERR registers written. That the latch of the Idle unit stays as it was is the model's choice (log 20). -/
def endPcu (code : ECode) (actual expected : Word) (s : State) : State :=
  { s with
    phasePcu := .idle
    pcu := { s.pcu with
      status := { busy := false, done := true, ovr := s.pcu.status.ovr, ecode := code }
      errActual := actual
      errExpected := expected } }

/-- The end of an FSU command as R205 and R206 give it. That the latch of the Idle unit stays as it was is the model's
choice (log 20). -/
def endFsu (code : ECode) (s : State) : State :=
  { s with
    phaseFsu := .idle
    fsu := { s.fsu with status := { busy := false, done := true, ovr := s.fsu.status.ovr, ecode := code } } }

/-- A byte of a BUSY unit's command footprint, command by command, from the latched operands (R241). -/
def FootprintByte (s : State) (u : UnitId) (a : Nat) : Prop :=
  match u with
  | .pcu =>
    let c := s.latPcu
    let n := c.width.toNat * c.height.toNat
    (∃ hdr, decode .pcu c.cmd = .legal (.decBuf hdr) ∧
      ((c.srcAddr.toNat ≤ a ∧ a < c.srcAddr.toNat + c.srcLen.toNat) ∨
       (c.dstAddr.toNat ≤ a ∧ a < c.dstAddr.toNat + 3 * n))) ∨
    (decode .pcu c.cmd = .legal .encBuf ∧
      ((c.srcAddr.toNat ≤ a ∧ a < c.srcAddr.toNat + c.srcLen.toNat) ∨
       (c.dstAddr.toNat ≤ a ∧ a < c.dstAddr.toNat + 2 * n)))
  | .fsu =>
    let c := s.latFsu
    (decode .fsu c.cmd = .legal .build ∧
      ((c.pathAddr.toNat ≤ a ∧ a < c.pathAddr.toNat + c.pathLen.toNat) ∨
       (c.payAddr.toNat ≤ a ∧ a < c.payAddr.toNat + c.payLen.toNat) ∨
       (c.frmAddr.toNat ≤ a ∧ a < c.frmAddr.toNat + (c.pathLen.toNat + 5 + c.payLen.toNat)))) ∨
    (decode .fsu c.cmd = .legal .send ∧ c.frmAddr.toNat ≤ a ∧ a < c.frmAddr.toNat + c.frmLen.toNat)

/-- `a` is the lowest address of the range of `n` bytes from `lo` whose byte holds no value (20_memory.md R66; that it
is the lowest which a fault names is the model's choice, log 8). -/
structure FirstUnwritten (m : Memory) (lo n a : Nat) : Prop where
  from_lo : lo ≤ a
  below_end : a < lo + n
  no_value : memGet m a = none
  lowest : ∀ k, lo ≤ k → k < a → memGet m k ≠ none

/-- The PCU's side of a state is the same in both (R52, R188). -/
structure SamePcu (s t : State) : Prop where
  bank : t.pcu = s.pcu
  phase : t.phasePcu = s.phasePcu
  latch : t.latPcu = s.latPcu
  mem : t.pbm = s.pbm

/-- The FSU's side of a state, the transport session included, is the same in both (R52, R188). -/
structure SameFsu (s t : State) : Prop where
  bank : t.fsu = s.fsu
  phase : t.phaseFsu = s.phaseFsu
  latch : t.latFsu = s.latFsu
  mem : t.fbm = s.fbm
  isOpen : t.txOpen = s.txOpen
  trace : t.txTrace = s.txTrace

/-- The parameters and what the model keeps of the outside are the same in both. -/
structure SameOutside (s t : State) : Prop where
  pbmSize : t.pbmSize = s.pbmSize
  fbmSize : t.fbmSize = s.fbmSize
  agenda : t.agenda = s.agenda
  writeAnswers : t.writeAnswers = s.writeAnswers
  flushAnswers : t.flushAnswers = s.flushAnswers
  draws : t.draws = s.draws
  hostLog : t.hostLog = s.hostLog
  mfault : t.mfault = s.mfault

/-- The PCU registers no PCU command writes (R112 to R115): its parameter registers. -/
structure SamePcuParams (s t : State) : Prop where
  width : t.pcu.width = s.pcu.width
  height : t.pcu.height = s.pcu.height
  srcAddr : t.pcu.srcAddr = s.pcu.srcAddr
  srcLen : t.pcu.srcLen = s.pcu.srcLen
  dstAddr : t.pcu.dstAddr = s.pcu.dstAddr
  ovr : t.pcu.status.ovr = s.pcu.status.ovr

/-- The FSU registers no FSU command writes (R146, R155): its parameter registers but FSU_FRM_LEN. -/
structure SameFsuParams (s t : State) : Prop where
  pathAddr : t.fsu.pathAddr = s.fsu.pathAddr
  pathLen : t.fsu.pathLen = s.fsu.pathLen
  payAddr : t.fsu.payAddr = s.fsu.payAddr
  payLen : t.fsu.payLen = s.fsu.payLen
  frmAddr : t.fsu.frmAddr = s.fsu.frmAddr
  ovr : t.fsu.status.ovr = s.fsu.status.ovr

/-- At most `n` turns of the FSU, one after another, ending when its command has completed (R250). -/
def fsuTurns : Nat → State → Host.Outcome State Fault Refusal
  | 0, s => .next s
  | n + 1, s =>
    match fsuStep s with
    | .next t => if t.phaseFsu = .idle then .next t else fsuTurns n t
    | .fault r => .fault r
    | .refused r => .refused r

end Sys2Proof.Machine
end

