-- ==== Sys2Proof/Certificates/Slice0/Obligations.lean ====
section
/-! DEFINITION. The statements for the provers, each a formal reading of numbered rules of spec/. Where a statement gives
a whole next state or says that a latch is as before, what it says of the latch of a unit that is then Idle is the model's
choice (log 20, DESIGN CHOICE): the spec leaves that content unspecified. -/

open Sys2Proof Sys2Proof.Machine

/-! ### Encoding -/

/-- R86, R89: a word decodes at a unit to a command exactly when it is that command's word and the command is that
unit's: no bit of the encoding is dropped and no word has two meanings at one unit. -/
def Obligations.DecodeAgreesWithEncode : Prop :=
  ∀ (u : UnitId) (w : Word) (i : Instr), decode u w = .legal i ↔ i.unit = u ∧ encode i = w

/-- R87: exactly the listed words are illegal; each is accepted at issue, and its perform step completes with
ILLEGAL_COMMAND, touching no memory and no result register but the PCU's two ERR registers.
That the latch of a unit the command leaves Idle stays as it was is the model's choice (log 20, DESIGN CHOICE). -/
def Obligations.IllegalWordsCompleteWithIllegalCommand : Prop :=
  (∀ (u : UnitId) (w : Word), (∃ why, decode u w = .illegal why) ↔
    (w.extractLsb 31 9 ≠ 0#23 ∨
     (w.getLsbD 8 = true ∧ ¬(u = .pcu ∧ w.extractLsb 7 0 = 0x03#8)) ∨
     (u = .pcu ∧ (w.extractLsb 7 0 = 0x00#8 ∨ 5 ≤ (w.extractLsb 7 0).toNat)) ∨
     (u = .fsu ∧ (w.extractLsb 7 0 = 0x00#8 ∨ 3 ≤ (w.extractLsb 7 0).toNat)))) ∧
  (∀ (w : Word) (why : Illegal) (s : State), s.mfault = none → s.pcu.status.busy = false →
    decode .pcu w = .illegal why →
    (hostWr 0x00 w s).phasePcu = .pending ∧ (hostWr 0x00 w s).pcu.status.busy = true ∧
    pcuStep (hostWr 0x00 w s) = .next (endPcu .illegalCommand 0 0 (hostWr 0x00 w s))) ∧
  (∀ (w : Word) (why : Illegal) (s : State), s.mfault = none → s.fsu.status.busy = false →
    decode .fsu w = .illegal why →
    (hostWr 0x40 w s).phaseFsu = .pending ∧ (hostWr 0x40 w s).fsu.status.busy = true ∧
    fsuStep (hostWr 0x40 w s) = .next (endFsu .illegalCommand (hostWr 0x40 w s)))

/-- R89: the seven words of the table decode, at their unit, to their commands. -/
def Obligations.MnemonicWordsDecode : Prop :=
  decode .pcu 0x00000001#32 = .legal .decPix ∧
  decode .pcu 0x00000002#32 = .legal .encPix ∧
  decode .pcu 0x00000003#32 = .legal (.decBuf false) ∧
  decode .pcu 0x00000103#32 = .legal (.decBuf true) ∧
  decode .pcu 0x00000004#32 = .legal .encBuf ∧
  decode .fsu 0x00000001#32 = .legal .build ∧
  decode .fsu 0x00000002#32 = .legal .send

/-! ### The step -/

/-- R117, R167: with no fault recorded, the unit's turn runs the command its latched word decodes to, an illegal word
ends with ILLEGAL_COMMAND (R87), and a SEND in its loop goes on. The turn takes the agenda's head away (log 2) and
changes nothing else around `exec`. A turn given to an Idle unit changes nothing else at all, the model's choice (log 3,
DESIGN CHOICE); that the latch of the unit an illegal word leaves Idle stays as it was is log 20 (DESIGN CHOICE). -/
def Obligations.UnitTurnRunsDecodedCommand : Prop :=
  ∀ (s : State) (rest : List AgentStep), s.mfault = none →
    (s.agenda = .pcu :: rest →
      (∀ i, s.phasePcu = .pending → decode .pcu s.latPcu.cmd = .legal i → step s = exec i { s with agenda := rest }) ∧
      (∀ why, s.phasePcu = .pending → decode .pcu s.latPcu.cmd = .illegal why →
        step s = .next (endPcu .illegalCommand 0 0 { s with agenda := rest })) ∧
      (s.phasePcu = .idle → step s = .next { s with agenda := rest })) ∧
    (s.agenda = .fsu :: rest →
      (∀ i, s.phaseFsu = .pending → decode .fsu s.latFsu.cmd = .legal i → step s = exec i { s with agenda := rest }) ∧
      (∀ why, s.phaseFsu = .pending → decode .fsu s.latFsu.cmd = .illegal why →
        step s = .next (endFsu .illegalCommand { s with agenda := rest })) ∧
      (s.phaseFsu = .writing → step s = exec .send { s with agenda := rest }) ∧
      (s.phaseFsu = .idle → step s = .next { s with agenda := rest }))

/-- R20, R77 in the model's form (log 2): the agent at the head of the agenda takes the step, a host transaction, a
unit's turn or a reset, and nothing else around it changes. -/
def Obligations.AgendaNamesTheAgent : Prop :=
  ∀ (s : State) (rest : List AgentStep), s.mfault = none →
    (∀ x, s.agenda = .host x :: rest → step s = settle (hostStep x { s with agenda := rest })) ∧
    (s.agenda = .reset :: rest → step s = settle (resetBlock { s with agenda := rest })) ∧
    (s.agenda = .pcu :: rest → step s = pcuStep { s with agenda := rest }) ∧
    (s.agenda = .fsu :: rest → step s = fsuStep { s with agenda := rest })

/-- The model's choice of log 3 (DESIGN CHOICE), with R117, R167 and R87: with an empty agenda a unit that is not Idle
runs on, the PCU first, whether its latched word is legal or not; with both units Idle nothing changes. That the latch of
the unit an illegal word leaves Idle stays as it was is log 20 (DESIGN CHOICE). -/
def Obligations.EmptyAgendaRunsUnits : Prop :=
  ∀ s : State, s.mfault = none → s.agenda = [] →
    (∀ i, s.phasePcu = .pending → decode .pcu s.latPcu.cmd = .legal i → step s = exec i s) ∧
    (∀ why, s.phasePcu = .pending → decode .pcu s.latPcu.cmd = .illegal why →
      step s = .next (endPcu .illegalCommand 0 0 s)) ∧
    (∀ i, s.phasePcu = .idle → s.phaseFsu = .pending → decode .fsu s.latFsu.cmd = .legal i → step s = exec i s) ∧
    (∀ why, s.phasePcu = .idle → s.phaseFsu = .pending → decode .fsu s.latFsu.cmd = .illegal why →
      step s = .next (endFsu .illegalCommand s)) ∧
    (s.phasePcu = .idle → s.phaseFsu = .writing → step s = exec .send s) ∧
    (s.phasePcu = .idle → s.phaseFsu = .idle → step s = .next s)

/-- R51 says that no later step, reset included, clears the fault record. That every later step answers the recorded
fault, whatever agent the agenda names, is the model's reading of R14 and R51 (log 1, DEDUCED). Reset keeps the
record. -/
def Obligations.RecordedFaultIsKept : Prop :=
  ∀ (s : State) (r : Fault), s.mfault = some r →
    (∀ agenda, step { s with agenda := agenda } = .fault r) ∧ (resetBlock s).mfault = some r

/-- The word placed for the next step (log 18): a PCU command's word is issued at the PCU, and the next step performs
exactly it. -/
def Obligations.PlacedWordRunsNext : Prop :=
  ∀ (s : State) (w : Nat) (i : Instr), s.mfault = none → w < 2 ^ 32 →
    decode .pcu (BitVec.ofNat 32 w) = .legal i →
    decodeTableWord 32 w = some i ∧
    step (s.withFetchWord 32 w) = exec i (issue .pcu (BitVec.ofNat 32 w) s)

/-! ### Pixel arithmetic -/

/-- R105: the end points, the strict order and the round trips of the two expansions. -/
def Obligations.ExpansionLaws : Prop :=
  (expand5 0 = 0 ∧ expand5 31 = 255 ∧ expand6 0 = 0 ∧ expand6 63 = 255) ∧
  (∀ f g : BitVec 5, f < g → expand5 f < expand5 g) ∧
  (∀ f g : BitVec 6, f < g → expand6 f < expand6 g) ∧
  (∀ f : BitVec 5, (expand5 f >>> 3).toNat = f.toNat) ∧
  (∀ f : BitVec 6, (expand6 f >>> 2).toNat = f.toNat)

/-- R103: red comes from bits 15:11 alone, green from bits 10:5, blue from bits 4:0, each by its expansion. -/
def Obligations.DecodedChannelsAreIsolated : Prop :=
  ∀ v : BitVec 16,
    (dec565 v).r = expand5 (v.extractLsb 15 11) ∧
    (dec565 v).g = expand6 (v.extractLsb 10 5) ∧
    (dec565 v).b = expand5 (v.extractLsb 4 0)

/-- R104: the encoded value holds the top bits of each channel at the channel's own place: truncation, not rounding. -/
def Obligations.EncodedFieldsAreTopBits : Prop :=
  ∀ p : Rgb,
    (enc888 p).extractLsb 15 11 = p.r.extractLsb 7 3 ∧
    (enc888 p).extractLsb 10 5 = p.g.extractLsb 7 2 ∧
    (enc888 p).extractLsb 4 0 = p.b.extractLsb 7 3

/-- 90_conflicts.md C5: decoding a pixel and encoding it again gives it back. -/
def Obligations.EncodeInvertsDecode : Prop :=
  ∀ v : BitVec 16, enc888 (dec565 v) = v

/-- R107, R69: pixel `i` of a stream of `n` RGB565 pixels, big-endian at bytes 2i and 2i+1, comes out as R, G, B at
bytes 3i, 3i+1, 3i+2. -/
def Obligations.DecodeStreamByPixel : Prop :=
  ∀ (n : Nat) (s : List Byte), s.length = 2 * n →
    (decodeStream s).length = 3 * n ∧
    ∀ i < n, ∃ hi lo, s[2 * i]? = some hi ∧ s[2 * i + 1]? = some lo ∧
      (decodeStream s)[3 * i]? = some (dec565 (hi ++ lo)).r ∧
      (decodeStream s)[3 * i + 1]? = some (dec565 (hi ++ lo)).g ∧
      (decodeStream s)[3 * i + 2]? = some (dec565 (hi ++ lo)).b

/-- R108, R67: pixel `i` of a stream of `n` RGB888 pixels comes out big-endian at bytes 2i and 2i+1. -/
def Obligations.EncodeStreamByPixel : Prop :=
  ∀ (n : Nat) (s : List Byte), s.length = 3 * n →
    (encodeStream s).length = 2 * n ∧
    ∀ i < n, ∃ r g b, s[3 * i]? = some r ∧ s[3 * i + 1]? = some g ∧ s[3 * i + 2]? = some b ∧
      (encodeStream s)[2 * i]? = some ((enc888 ⟨r, g, b⟩).extractLsb 15 8) ∧
      (encodeStream s)[2 * i + 1]? = some ((enc888 ⟨r, g, b⟩).extractLsb 7 0)

/-! ### Completion -/

/-- R205, R206: `complete_ok` and `raise`, unit by unit, register by register.
That the latch of a unit the command leaves Idle stays as it was is the model's choice (log 20, DESIGN CHOICE). -/
def Obligations.CompletionWritesStatus : Prop :=
  ∀ (s : State) (e : CmdError),
    completeOk .pcu s = endPcu .none 0 0 s ∧
    completeOk .fsu s = endFsu .none s ∧
    raise .fsu e s = endFsu e.code s ∧
    (∀ actual expected, raise .pcu (.payloadTooSmall actual expected) s =
      endPcu .payloadTooSmall (BitVec.ofNat 32 actual) (BitVec.ofNat 32 expected) s) ∧
    (e.code ≠ .payloadTooSmall → raise .pcu e s = endPcu e.code 0 0 s)

/-- R28, R39, R200: STATUS as software reads it. -/
def Obligations.StatusWordFields : Prop :=
  ∀ st : Status,
    st.word.getLsbD 0 = st.busy ∧ st.word.getLsbD 1 = st.done ∧ st.word.getLsbD 2 = st.ovr ∧
    st.word.getLsbD 3 = false ∧ st.word.extractLsb 31 8 = 0#24 ∧ st.word.extractLsb 7 4 = st.ecode.bits ∧
    ECode.none.bits = 0 ∧ ECode.payloadTooSmall.bits = 1 ∧ ECode.invalidPath.bits = 2 ∧
    ECode.invalidArguments.bits = 3 ∧ ECode.transportWriteFailed.bits = 4 ∧ ECode.illegalCommand.bits = 5 ∧
    ECode.rangeError.bits = 6 ∧ ECode.overlap.bits = 7

/-! ### The PCU's commands -/

/-- R112: DEC_PIX completes from every state with no fault recorded: the decoded channels of the latched value stand
in PCU_RGB888, the flags and ERR registers as R205 says, and everything else as it was.
That the latch of a unit the command leaves Idle stays as it was is the model's choice (log 20, DESIGN CHOICE). -/
def Obligations.DecPixCompletes : Prop :=
  decode .pcu 0x00000001#32 = .legal .decPix ∧
  ∀ s : State, s.mfault = none →
    exec .decPix s = .next (endPcu .none 0 0
      { s with pcu := { s.pcu with
          rgb888 := (dec565 s.latPcu.pix565).r ++ (dec565 s.latPcu.pix565).g ++ (dec565 s.latPcu.pix565).b } })

/-- R113: ENC_PIX completes from every state with no fault recorded: the encoded value of the latched channels stands
in PCU_PIX565, the flags and ERR registers as R205 says, and everything else as it was.
That the latch of a unit the command leaves Idle stays as it was is the model's choice (log 20, DESIGN CHOICE). -/
def Obligations.EncPixCompletes : Prop :=
  decode .pcu 0x00000002#32 = .legal .encPix ∧
  ∀ s : State, s.mfault = none →
    exec .encPix s = .next (endPcu .none 0 0
      { s with pcu := { s.pcu with
          pix565 := enc888 ⟨s.latPcu.rgb888.extractLsb 23 16, s.latPcu.rgb888.extractLsb 15 8,
            s.latPcu.rgb888.extractLsb 7 0⟩ } })

/-- R114: DEC_BUF completes when its dimensions are good, its source and destination ranges lie in PBM, the bytes after
the header are enough, the consumed source and the destination do not overlap, and every consumed byte holds a value.
That the latch of a unit the command leaves Idle stays as it was is the model's choice (log 20, DESIGN CHOICE). -/
def Obligations.DecBufCompletes : Prop :=
  ∀ (hdr : Bool) (s : State) (bytes : List Byte) (n src dst : Nat), s.mfault = none →
    n = s.latPcu.width.toNat * s.latPcu.height.toNat → 1 ≤ n → 3 * n ≤ 0xFFFFFFFF →
    src = s.latPcu.srcAddr.toNat + (if hdr then 4 else 0) → dst = s.latPcu.dstAddr.toNat →
    s.latPcu.srcAddr.toNat + s.latPcu.srcLen.toNat ≤ s.pbmSize →
    (if hdr then 4 else 0) + 2 * n ≤ s.latPcu.srcLen.toNat →
    dst + 3 * n ≤ s.pbmSize →
    (src + 2 * n ≤ dst ∨ dst + 3 * n ≤ src) →
    memRead s.pbm src (2 * n) = .ok bytes →
    exec (.decBuf hdr) s = .next (endPcu .none 0 0 { s with pbm := memWrite s.pbm dst (decodeStream bytes) })

/-- R115: ENC_BUF completes when its dimensions are good, its ranges lie in PBM, its source is long enough, source and
destination do not overlap, and every consumed byte holds a value.
That the latch of a unit the command leaves Idle stays as it was is the model's choice (log 20, DESIGN CHOICE). -/
def Obligations.EncBufCompletes : Prop :=
  ∀ (s : State) (bytes : List Byte) (n src dst : Nat), s.mfault = none →
    n = s.latPcu.width.toNat * s.latPcu.height.toNat → 1 ≤ n → 3 * n ≤ 0xFFFFFFFF →
    src = s.latPcu.srcAddr.toNat → dst = s.latPcu.dstAddr.toNat →
    src + s.latPcu.srcLen.toNat ≤ s.pbmSize →
    3 * n ≤ s.latPcu.srcLen.toNat →
    dst + 2 * n ≤ s.pbmSize →
    (src + 3 * n ≤ dst ∨ dst + 2 * n ≤ src) →
    memRead s.pbm src (3 * n) = .ok bytes →
    exec .encBuf s = .next (endPcu .none 0 0 { s with pbm := memWrite s.pbm dst (encodeStream bytes) })

/-- R66, R220: each command whose checks pass, and which comes to a byte that holds no value, is the model fault
UnwrittenRead: DEC_BUF and ENC_BUF at their consumed source bytes, BUILD at its path and then at its payload, SEND in
its loop at the frame's rest; and so is a host read of such a byte while the unit is not BUSY. That the fault names the
lowest such address of the range is the model's choice (log 8, DESIGN CHOICE). -/
def Obligations.UnwrittenReadFaults : Prop :=
  ∀ (s : State) (a : Nat), s.mfault = none →
    (∀ (hdr : Bool) (n src dst : Nat), n = s.latPcu.width.toNat * s.latPcu.height.toNat → 1 ≤ n →
      3 * n ≤ 0xFFFFFFFF → src = s.latPcu.srcAddr.toNat + (if hdr then 4 else 0) → dst = s.latPcu.dstAddr.toNat →
      s.latPcu.srcAddr.toNat + s.latPcu.srcLen.toNat ≤ s.pbmSize →
      (if hdr then 4 else 0) + 2 * n ≤ s.latPcu.srcLen.toNat → dst + 3 * n ≤ s.pbmSize →
      (src + 2 * n ≤ dst ∨ dst + 3 * n ≤ src) → FirstUnwritten s.pbm src (2 * n) a →
      exec (.decBuf hdr) s = .fault (.unwrittenRead .pbm a)) ∧
    (∀ n src dst : Nat, n = s.latPcu.width.toNat * s.latPcu.height.toNat → 1 ≤ n →
      3 * n ≤ 0xFFFFFFFF → src = s.latPcu.srcAddr.toNat → dst = s.latPcu.dstAddr.toNat →
      src + s.latPcu.srcLen.toNat ≤ s.pbmSize → 3 * n ≤ s.latPcu.srcLen.toNat → dst + 2 * n ≤ s.pbmSize →
      (src + 3 * n ≤ dst ∨ dst + 2 * n ≤ src) → FirstUnwritten s.pbm src (3 * n) a →
      exec .encBuf s = .fault (.unwrittenRead .pbm a)) ∧
    (∀ P n Q m F : Nat, P = s.latFsu.pathAddr.toNat → n = s.latFsu.pathLen.toNat →
      Q = s.latFsu.payAddr.toNat → m = s.latFsu.payLen.toNat → F = s.latFsu.frmAddr.toNat →
      (n = 0 ∨ P + n ≤ s.fbmSize) → (m = 0 ∨ Q + m ≤ s.fbmSize) →
      (FirstUnwritten s.fbm P n a → exec .build s = .fault (.unwrittenRead .fbm a)) ∧
      (∀ path, memRead s.fbm P n = .ok path → (∀ b ∈ path, b ≠ 0x20#8 ∧ b ≠ 0x0A#8) →
        F + (n + 5 + m) ≤ s.fbmSize →
        (n = 0 ∨ P + n ≤ F ∨ F + (n + 5 + m) ≤ P) → (m = 0 ∨ Q + m ≤ F ∨ F + (n + 5 + m) ≤ Q) →
        FirstUnwritten s.fbm Q m a → exec .build s = .fault (.unwrittenRead .fbm a))) ∧
    (∀ A L off : Nat, A = s.latFsu.frmAddr.toNat → L = s.latFsu.frmLen.toNat → off = s.fsu.txSent.toNat →
      s.phaseFsu = .writing → FirstUnwritten s.fbm (A + off) (L - off) a →
      exec .send s = .fault (.unwrittenRead .fbm a)) ∧
    (∀ (u : UnitId) (addr : Word), addr.toNat = a → a < s.bufSize u.buf → (s.status u).busy = false →
      memGet (s.buf u.buf) a = none → settle (hostBmr u addr s) = .fault (.unwrittenRead u.buf a))

/-- R204: one command reports one error, the first check that fails in the rule's order; the PCU's errors with their
info (R202), the FSU's with their code, and nothing else changed.
That the latch of a unit the command leaves Idle stays as it was is the model's choice (log 20, DESIGN CHOICE). -/
def Obligations.FirstFailingCheckIsReported : Prop :=
  ∀ s : State, s.mfault = none →
    (∀ (hdr : Bool) (n h : Nat), n = s.latPcu.width.toNat * s.latPcu.height.toNat → h = (if hdr then 4 else 0) →
      if n = 0 ∨ 0xFFFFFFFF < 3 * n then exec (.decBuf hdr) s = .next (endPcu .invalidArguments 0 0 s)
      else if s.latPcu.srcLen.toNat ≠ 0 ∧ s.pbmSize < s.latPcu.srcAddr.toNat + s.latPcu.srcLen.toNat then
        exec (.decBuf hdr) s = .next (endPcu .rangeError 0 0 s)
      else if s.latPcu.srcLen.toNat - h < 2 * n then
        exec (.decBuf hdr) s = .next (endPcu .payloadTooSmall
          (BitVec.ofNat 32 (s.latPcu.srcLen.toNat - h)) (BitVec.ofNat 32 (2 * n)) s)
      else if s.pbmSize < s.latPcu.dstAddr.toNat + 3 * n then
        exec (.decBuf hdr) s = .next (endPcu .rangeError 0 0 s)
      else if s.latPcu.srcAddr.toNat + h < s.latPcu.dstAddr.toNat + 3 * n ∧
          s.latPcu.dstAddr.toNat < s.latPcu.srcAddr.toNat + h + 2 * n then
        exec (.decBuf hdr) s = .next (endPcu .overlap 0 0 s)
      else True) ∧
    (∀ n : Nat, n = s.latPcu.width.toNat * s.latPcu.height.toNat →
      if n = 0 ∨ 0xFFFFFFFF < 3 * n then exec .encBuf s = .next (endPcu .invalidArguments 0 0 s)
      else if s.latPcu.srcLen.toNat ≠ 0 ∧ s.pbmSize < s.latPcu.srcAddr.toNat + s.latPcu.srcLen.toNat then
        exec .encBuf s = .next (endPcu .rangeError 0 0 s)
      else if s.latPcu.srcLen.toNat < 3 * n then
        exec .encBuf s = .next (endPcu .payloadTooSmall s.latPcu.srcLen (BitVec.ofNat 32 (3 * n)) s)
      else if s.pbmSize < s.latPcu.dstAddr.toNat + 2 * n then
        exec .encBuf s = .next (endPcu .rangeError 0 0 s)
      else if s.latPcu.srcAddr.toNat < s.latPcu.dstAddr.toNat + 2 * n ∧
          s.latPcu.dstAddr.toNat < s.latPcu.srcAddr.toNat + 3 * n then
        exec .encBuf s = .next (endPcu .overlap 0 0 s)
      else True) ∧
    (∀ P n Q m F L : Nat, P = s.latFsu.pathAddr.toNat → n = s.latFsu.pathLen.toNat →
      Q = s.latFsu.payAddr.toNat → m = s.latFsu.payLen.toNat → F = s.latFsu.frmAddr.toNat → L = n + 5 + m →
      if n ≠ 0 ∧ s.fbmSize < P + n then exec .build s = .next (endFsu .rangeError s)
      else if m ≠ 0 ∧ s.fbmSize < Q + m then exec .build s = .next (endFsu .rangeError s)
      else ∀ path, memRead s.fbm P n = .ok path →
        if ∃ b ∈ path, b = 0x20#8 ∨ b = 0x0A#8 then exec .build s = .next (endFsu .invalidPath s)
        else if s.fbmSize < F + L then exec .build s = .next (endFsu .rangeError s)
        else if (n ≠ 0 ∧ F < P + n ∧ P < F + L) ∨ (m ≠ 0 ∧ F < Q + m ∧ Q < F + L) then
          exec .build s = .next (endFsu .overlap s)
        else True) ∧
    (s.phaseFsu = .pending → s.latFsu.frmLen.toNat ≠ 0 →
      s.fbmSize < s.latFsu.frmAddr.toNat + s.latFsu.frmLen.toNat →
      exec .send s = .next (endFsu .rangeError s))

/-- R203: the codes each command can end with. -/
def Obligations.CommandsRaiseOnlyTheirCodes : Prop :=
  ∀ s t : State,
    (exec .decPix s = .next t ∨ exec .encPix s = .next t → t.pcu.status.ecode = .none) ∧
    ((∃ hdr, exec (.decBuf hdr) s = .next t) ∨ exec .encBuf s = .next t →
      t.pcu.status.ecode ∈ [ECode.none, .invalidArguments, .rangeError, .payloadTooSmall, .overlap]) ∧
    (exec .build s = .next t → t.fsu.status.ecode ∈ [ECode.none, .rangeError, .invalidPath, .overlap]) ∧
    (exec .send s = .next t → t.phaseFsu = .idle →
      t.fsu.status.ecode ∈ [ECode.none, .rangeError, .transportWriteFailed]) ∧
    (∀ why, s.phasePcu = .pending → decode .pcu s.latPcu.cmd = .illegal why → pcuStep s = .next t →
      t.pcu.status.ecode = .illegalCommand) ∧
    (∀ why, s.phaseFsu = .pending → decode .fsu s.latFsu.cmd = .illegal why → fsuStep s = .next t →
      t.fsu.status.ecode = .illegalCommand)

/-- R206, R207: a buffer command or BUILD that ends with an error leaves both memories and every result register as
they were. -/
def Obligations.ErrorsArePrecise : Prop :=
  ∀ (i : Instr) (s t : State), exec i s = .next t →
    ((∃ hdr, i = .decBuf hdr) ∨ i = .encBuf → t.pcu.status.ecode ≠ .none →
      t.pbm = s.pbm ∧ t.fbm = s.fbm ∧ t.pcu.pix565 = s.pcu.pix565 ∧ t.pcu.rgb888 = s.pcu.rgb888) ∧
    (i = .build → t.fsu.status.ecode ≠ .none →
      t.pbm = s.pbm ∧ t.fbm = s.fbm ∧ t.fsu.frmLen = s.fsu.frmLen)

/-- The frame of DEC_PIX and ENC_PIX (R112, R113): beside the flags, the phase and the ERR registers, DEC_PIX writes
PCU_RGB888 alone and ENC_PIX writes PCU_PIX565 alone; no byte of memory changes, and nothing of the FSU.
That the latch of a unit the command leaves Idle stays as it was is the model's choice (log 20, DESIGN CHOICE). -/
def Obligations.PixelCommandFrame : Prop :=
  ∀ (i : Instr) (s t : State), i = .decPix ∨ i = .encPix → exec i s = .next t →
    SamePcuParams s t ∧ SameFsu s t ∧ SameOutside s t ∧ t.latPcu = s.latPcu ∧
    (i = .decPix → t.pcu.pix565 = s.pcu.pix565) ∧ (i = .encPix → t.pcu.rgb888 = s.pcu.rgb888) ∧
    ∀ a, memGet t.pbm a = memGet s.pbm a

/-- The frame of DEC_BUF and ENC_BUF (R114, R115): beside the flags, the phase and the ERR registers, only the
destination's 3N (2N) bytes of PBM change.
That the latch of a unit the command leaves Idle stays as it was is the model's choice (log 20, DESIGN CHOICE). -/
def Obligations.BufferCommandFrame : Prop :=
  ∀ (i : Instr) (s t : State) (width : Nat),
    ((∃ hdr, i = .decBuf hdr) ∧ width = 3 * s.latPcu.pixels) ∨ (i = .encBuf ∧ width = 2 * s.latPcu.pixels) →
    exec i s = .next t →
    SamePcuParams s t ∧ SameFsu s t ∧ SameOutside s t ∧ t.latPcu = s.latPcu ∧
    t.pcu.pix565 = s.pcu.pix565 ∧ t.pcu.rgb888 = s.pcu.rgb888 ∧
    ∀ a, a < s.latPcu.dstAddr.toNat ∨ s.latPcu.dstAddr.toNat + width ≤ a → memGet t.pbm a = memGet s.pbm a

/-- R116, R109, R110: DEC_BUF and ENC_BUF look at no byte but the consumed ones: with any other bytes elsewhere in PBM
(in the header, in the trailing source bytes, in the destination) they end with the same flags and registers and the
same destination bytes, or meet the same fault. -/
def Obligations.BufferCommandsReadOnlyPixelBytes : Prop :=
  ∀ (i : Instr) (s : State) (other : Memory) (src n dst len : Nat),
    (∃ hdr, i = .decBuf hdr ∧ src = s.latPcu.streamAddr hdr ∧ n = 2 * s.latPcu.pixels ∧ len = 3 * s.latPcu.pixels) ∨
      (i = .encBuf ∧ src = s.latPcu.srcAddr.toNat ∧ n = 3 * s.latPcu.pixels ∧ len = 2 * s.latPcu.pixels) →
    dst = s.latPcu.dstAddr.toNat →
    (∀ a, src ≤ a → a < src + n → memGet other a = memGet s.pbm a) →
    (∀ r, exec i s = .fault r → exec i { s with pbm := other } = .fault r) ∧
    (∀ t, exec i s = .next t → ∃ t', exec i { s with pbm := other } = .next t' ∧ t'.pcu = t.pcu ∧
      (t.pcu.status.ecode = .none → ∀ a, dst ≤ a → a < dst + len → memGet t'.pbm a = memGet t.pbm a))

/-- R109: source bytes beyond those consumed are ignored: a DEC_BUF or ENC_BUF that succeeds gives the same registers
and the same memory with any larger SRC_LEN whose range lies in PBM.
That the latch of a unit the command leaves Idle stays as it was is the model's choice (log 20, DESIGN CHOICE). -/
def Obligations.TrailingSourceBytesAreIgnored : Prop :=
  ∀ (i : Instr) (s t : State) (len : Word), (∃ hdr, i = .decBuf hdr) ∨ i = .encBuf →
    exec i s = .next t → t.pcu.status.ecode = .none →
    s.latPcu.srcLen.toNat ≤ len.toNat → s.latPcu.srcAddr.toNat + len.toNat ≤ s.pbmSize →
    exec i { s with latPcu := { s.latPcu with srcLen := len } } =
      .next { t with latPcu := { s.latPcu with srcLen := len } }

/-! ### The FSU's commands -/

/-- R140, R141: a path is refused exactly for a space or a newline byte; the empty path is valid. -/
def Obligations.ValidPathRefusesSpaceAndNewline : Prop :=
  (∀ p : List Byte, validPath p = true ↔ ∀ i < p.length, p[i]? ≠ some 0x20#8 ∧ p[i]? ≠ some 0x0A#8) ∧
  validPath [] = true

/-- R142, R143, R144: the frame's bytes and length, and its first newline, which ends the path. -/
def Obligations.FrameLayout : Prop :=
  ∀ (p q : List Byte) (m : Word), q.length = m.toNat →
    (frame p m q).length = p.length + 5 + q.length ∧
    (frame p m q).take p.length = p ∧
    (frame p m q)[p.length]? = some 0x0A#8 ∧
    (∃ b0 b1 b2 b3 : Byte, ((frame p m q).drop (p.length + 1)).take 4 = [b0, b1, b2, b3] ∧
      b0.toNat + 256 * b1.toNat + 65536 * b2.toNat + 16777216 * b3.toNat = q.length) ∧
    (frame p m q).drop (p.length + 5) = q ∧
    (validPath p = true → ∀ i < p.length, (frame p m q)[i]? ≠ some 0x0A#8)

/-- R146: BUILD completes when its path, payload and frame ranges lie in FBM, the path is valid, the frame overlaps
neither, and every byte read holds a value: the frame is written, FSU_FRM_LEN holds its length, and no port event is
emitted (R147).
That the latch of a unit the command leaves Idle stays as it was is the model's choice (log 20, DESIGN CHOICE). -/
def Obligations.BuildCompletes : Prop :=
  ∀ (s : State) (path payload : List Byte) (P n Q m F : Nat), s.mfault = none →
    P = s.latFsu.pathAddr.toNat → n = s.latFsu.pathLen.toNat →
    Q = s.latFsu.payAddr.toNat → m = s.latFsu.payLen.toNat → F = s.latFsu.frmAddr.toNat →
    (n = 0 ∨ P + n ≤ s.fbmSize) → (m = 0 ∨ Q + m ≤ s.fbmSize) →
    memRead s.fbm P n = .ok path → (∀ b ∈ path, b ≠ 0x20#8 ∧ b ≠ 0x0A#8) →
    F + (n + 5 + m) ≤ s.fbmSize →
    (n = 0 ∨ P + n ≤ F ∨ F + (n + 5 + m) ≤ P) → (m = 0 ∨ Q + m ≤ F ∨ F + (n + 5 + m) ≤ Q) →
    memRead s.fbm Q m = .ok payload →
    exec .build s = .next (endFsu .none
      { s with
        fbm := memWrite s.fbm F (path ++ [0x0A#8] ++ le32 s.latFsu.payLen ++ payload)
        fsu := { s.fsu with frmLen := BitVec.ofNat 32 (n + 5 + m) } })

/-- The frame of BUILD (R146, R147): beside the flags, the phase and FSU_FRM_LEN, only the frame's bytes of FBM change;
the port, the counters and everything of the PCU stay.
That the latch of a unit the command leaves Idle stays as it was is the model's choice (log 20, DESIGN CHOICE). -/
def Obligations.BuildFrame : Prop :=
  ∀ s t : State, exec .build s = .next t →
    SamePcu s t ∧ SameFsuParams s t ∧ SameOutside s t ∧ t.latFsu = s.latFsu ∧
    t.txOpen = s.txOpen ∧ t.txTrace = s.txTrace ∧
    t.fsu.txSent = s.fsu.txSent ∧ t.fsu.txCalls = s.fsu.txCalls ∧
    ∀ a, a < s.latFsu.frmAddr.toNat ∨ s.latFsu.frmAddr.toNat + s.latFsu.builtLength ≤ a →
      memGet t.fbm a = memGet s.fbm a

/-- R150: SEND's start step answers the range error with no port event, or emits TxOpen and goes to Writing.
That the latch of a unit the command leaves Idle stays as it was is the model's choice (log 20, DESIGN CHOICE). -/
def Obligations.SendStarts : Prop :=
  ∀ (s : State) (A L : Nat), s.mfault = none → s.phaseFsu = .pending →
    A = s.latFsu.frmAddr.toNat → L = s.latFsu.frmLen.toNat →
    (L ≠ 0 → s.fbmSize < A + L → exec .send s = .next (endFsu .rangeError s)) ∧
    (L = 0 ∨ A + L ≤ s.fbmSize →
      exec .send s = .next { s with txTrace := s.txTrace ++ [.txOpen], txOpen := true, phaseFsu := .writing })

/-- R151, R152, R153, R161: SEND's write step, for every answer of the transport: a count of 1 to the offered length
advances the offset, a zero count or Fail closes the session and ends SEND, a larger count is a model fault.
That the latch of a unit the command leaves Idle stays as it was is the model's choice (log 20, DESIGN CHOICE). -/
def Obligations.SendWriteStep : Prop :=
  ∀ (s : State) (offered : List Byte) (a : WriteAnswer) (A L off : Nat), s.mfault = none →
    s.phaseFsu = .writing → A = s.latFsu.frmAddr.toNat → L = s.latFsu.frmLen.toNat → off = s.fsu.txSent.toNat →
    off < L → memRead s.fbm (A + off) (L - off) = .ok offered → a = s.writeAnswer →
    (∀ k, a = .count k → 1 ≤ k → k ≤ L - off →
      exec .send s = .next { s.takeWriteAnswer with
        txTrace := s.txTrace ++ [.txWrite offered (.count k)]
        fsu := { s.fsu with txCalls := s.fsu.txCalls + 1, txSent := BitVec.ofNat 32 (off + k) } }) ∧
    (a = .fail ∨ a = .count 0 →
      exec .send s = .next (endFsu .transportWriteFailed { s.takeWriteAnswer with
        txTrace := s.txTrace ++ [.txWrite offered a, .txClose]
        txOpen := false
        fsu := { s.fsu with txCalls := s.fsu.txCalls + 1 } })) ∧
    (∀ k, a = .count k → L - off < k → exec .send s = .fault .transportOverrun)

/-- R154: SEND's flush step, for either answer of the transport.
That the latch of a unit the command leaves Idle stays as it was is the model's choice (log 20, DESIGN CHOICE). -/
def Obligations.SendFlushStep : Prop :=
  ∀ s : State, s.mfault = none → s.phaseFsu = .writing → s.fsu.txSent = s.latFsu.frmLen →
    (s.flushAnswer = .ok → exec .send s = .next (endFsu .none { s.takeFlushAnswer with
      txTrace := s.txTrace ++ [.txFlush .ok, .txClose], txOpen := false })) ∧
    (s.flushAnswer = .fail → exec .send s = .next (endFsu .transportWriteFailed { s.takeFlushAnswer with
      txTrace := s.txTrace ++ [.txFlush .fail, .txClose], txOpen := false }))

/-- R165: a SEND of length 0 opens, flushes and closes, with no write attempt. -/
def Obligations.EmptySendOnlyFlushes : Prop :=
  ∀ s : State, s.mfault = none → s.phaseFsu = .pending → s.latFsu.frmLen = 0 →
    s.fsu.txSent = 0 → s.fsu.txCalls = 0 →
    ∃ t u f, exec .send s = .next t ∧ exec .send t = .next u ∧
      u.txTrace = s.txTrace ++ [.txOpen, .txFlush f, .txClose] ∧
      u.phaseFsu = .idle ∧ u.txOpen = false ∧ u.fsu.txCalls = 0 ∧ u.fsu.txSent = 0 ∧
      u.fsu.status.ecode = (match f with | .ok => .none | .fail => .transportWriteFailed)

/-- The frame of SEND, all its steps (R155): no byte of either memory changes, no parameter register (FSU_FRM_LEN
included), nothing of the PCU; the port's trace only grows.
That the latch of a unit the command leaves Idle stays as it was is the model's choice (log 20, DESIGN CHOICE). -/
def Obligations.SendFrame : Prop :=
  ∀ s t : State, exec .send s = .next t →
    SamePcu s t ∧ SameFsuParams s t ∧ t.fsu.frmLen = s.fsu.frmLen ∧ t.latFsu = s.latFsu ∧
    t.pbmSize = s.pbmSize ∧ t.fbmSize = s.fbmSize ∧ t.agenda = s.agenda ∧ t.hostLog = s.hostLog ∧
    t.mfault = s.mfault ∧ (∀ a, memGet t.fbm a = memGet s.fbm a) ∧ ∃ more, t.txTrace = s.txTrace ++ more

/-- R159, R208: when a SEND ends with ECODE 0, the bytes the transport has taken in its session are exactly the frame's
bytes in FBM. -/
def Obligations.SuccessfulSendDeliversFrame : Prop :=
  ∀ s t : State, s.Inv → s.SessionInv → s.phaseFsu = .writing → exec .send s = .next t →
    t.phaseFsu = .idle → t.fsu.status.ecode = .none →
    memRead t.fbm s.latFsu.frmAddr.toNat s.latFsu.frmLen.toNat = .ok (sessionBytes t.txTrace)

/-- R250: a SEND whose session is open ends within as many turns as it has bytes left, and one more for the flush,
whatever the transport answers; or a model fault ends the run. -/
def Obligations.SendEndsWithinItsBytes : Prop :=
  ∀ (n : Nat) (s : State), s.mfault = none → s.phaseFsu = .writing →
    s.fsu.txSent.toNat ≤ s.latFsu.frmLen.toNat → s.latFsu.frmLen.toNat - s.fsu.txSent.toNat < n →
    (∃ r, fsuTurns n s = .fault r) ∨
    (∃ t, fsuTurns n s = .next t ∧ t.phaseFsu = .idle ∧ t.fsu.status.busy = false ∧ t.fsu.status.done = true)

/-! ### The host port -/

/-- R181, R182: a read of an aligned offset returns the register, 0 for a CMD register and for an unmapped offset, and
changes nothing but the model's record of the host's reads (log 10); a misaligned one is a model fault. -/
def Obligations.HostReadsRegisters : Prop :=
  ∀ (s : State) (off : Nat), s.mfault = none →
    (off % 4 ≠ 0 → settle (hostRd off s) = .fault (.misalignedRegisterAccess off)) ∧
    (off % 4 = 0 → ∃ v, settle (hostRd off s) = .next { s with hostLog := s.hostLog ++ [.reg off v] } ∧
      v = if off = 0x04 then s.pcu.status.word
        else if off = 0x08 then s.pcu.width
        else if off = 0x0C then s.pcu.height
        else if off = 0x10 then s.pcu.srcAddr
        else if off = 0x14 then s.pcu.srcLen
        else if off = 0x18 then s.pcu.dstAddr
        else if off = 0x1C then s.pcu.pix565.setWidth 32
        else if off = 0x20 then s.pcu.rgb888.setWidth 32
        else if off = 0x24 then s.pcu.errActual
        else if off = 0x28 then s.pcu.errExpected
        else if off = 0x44 then s.fsu.status.word
        else if off = 0x48 then s.fsu.pathAddr
        else if off = 0x4C then s.fsu.pathLen
        else if off = 0x50 then s.fsu.payAddr
        else if off = 0x54 then s.fsu.payLen
        else if off = 0x58 then s.fsu.frmAddr
        else if off = 0x5C then s.fsu.frmLen
        else if off = 0x60 then s.fsu.txSent
        else if off = 0x64 then s.fsu.txCalls
        else 0#32)

/-- R181, R183 and R26: what a host write does to each register but the CMD registers; a write to a read-only register or
an unmapped offset has no effect; a misaligned one is a model fault. -/
def Obligations.HostWritesRegisters : Prop :=
  ∀ (s : State) (off : Nat) (v : Word), s.mfault = none →
    (off % 4 ≠ 0 → settle (hostWr off v s) = .fault (.misalignedRegisterAccess off)) ∧
    (off % 4 = 0 → off ≠ 0x00 → off ≠ 0x40 → ∃ t, settle (hostWr off v s) = .next t ∧
      t = if off = 0x04 then { s with pcu := { s.pcu with status := { s.pcu.status with
            done := if v.getLsbD 1 then false else s.pcu.status.done
            ovr := if v.getLsbD 2 then false else s.pcu.status.ovr } } }
        else if off = 0x08 then { s with pcu := { s.pcu with width := v } }
        else if off = 0x0C then { s with pcu := { s.pcu with height := v } }
        else if off = 0x10 then { s with pcu := { s.pcu with srcAddr := v } }
        else if off = 0x14 then { s with pcu := { s.pcu with srcLen := v } }
        else if off = 0x18 then { s with pcu := { s.pcu with dstAddr := v } }
        else if off = 0x1C then { s with pcu := { s.pcu with pix565 := v.extractLsb 15 0 } }
        else if off = 0x20 then { s with pcu := { s.pcu with rgb888 := v.extractLsb 23 0 } }
        else if off = 0x44 then { s with fsu := { s.fsu with status := { s.fsu.status with
            done := if v.getLsbD 1 then false else s.fsu.status.done
            ovr := if v.getLsbD 2 then false else s.fsu.status.ovr } } }
        else if off = 0x48 then { s with fsu := { s.fsu with pathAddr := v } }
        else if off = 0x4C then { s with fsu := { s.fsu with pathLen := v } }
        else if off = 0x50 then { s with fsu := { s.fsu with payAddr := v } }
        else if off = 0x54 then { s with fsu := { s.fsu with payLen := v } }
        else if off = 0x58 then { s with fsu := { s.fsu with frmAddr := v } }
        else if off = 0x5C then { s with fsu := { s.fsu with frmLen := v } }
        else s)

/-- R184: issue, at either unit: the latch takes the word and every RW register, the phase is Pending, BUSY is 1, DONE
and ECODE are 0, OVR is unchanged; an FSU issue zeroes the two SEND counters; the word is not checked. -/
def Obligations.CmdWriteIssues : Prop :=
  ∀ (s : State) (w : Word), s.mfault = none →
    (s.pcu.status.busy = false → settle (hostWr 0x00 w s) = .next { s with
      latPcu := ⟨w, s.pcu.width, s.pcu.height, s.pcu.srcAddr, s.pcu.srcLen, s.pcu.dstAddr, s.pcu.pix565, s.pcu.rgb888⟩
      phasePcu := .pending
      pcu := { s.pcu with status := { busy := true, done := false, ovr := s.pcu.status.ovr, ecode := .none } } }) ∧
    (s.fsu.status.busy = false → settle (hostWr 0x40 w s) = .next { s with
      latFsu := ⟨w, s.fsu.pathAddr, s.fsu.pathLen, s.fsu.payAddr, s.fsu.payLen, s.fsu.frmAddr, s.fsu.frmLen⟩
      phaseFsu := .pending
      fsu := { s.fsu with
        status := { busy := true, done := false, ovr := s.fsu.status.ovr, ecode := .none }
        txSent := 0
        txCalls := 0 } })

/-- R185: a write of a CMD register while its unit is BUSY sets OVR and changes nothing else. -/
def Obligations.BusyCmdWriteSetsOverrun : Prop :=
  ∀ (s : State) (w : Word), s.mfault = none →
    (s.pcu.status.busy = true → settle (hostWr 0x00 w s) =
      .next { s with pcu := { s.pcu with status := { s.pcu.status with ovr := true } } }) ∧
    (s.fsu.status.busy = true → settle (hostWr 0x40 w s) =
      .next { s with fsu := { s.fsu with status := { s.fsu.status with ovr := true } } })

/-- R186, R187: the host's buffer accesses when no hazard is met: an address outside the memory reads 0 and drops the
write; inside, a read returns the byte or faults if it holds no value, and a write sets that byte alone: the next state is the
same but for that memory, which reads the same but for that byte. What a read returned
stands in the model's record (log 10). -/
def Obligations.HostBufferAccess : Prop :=
  ∀ (s : State) (u : UnitId) (addr : Word) (b : Byte), s.mfault = none →
    (s.bufSize u.buf ≤ addr.toNat →
      settle (hostBmr u addr s) = .next { s with hostLog := s.hostLog ++ [.byte u addr 0] } ∧
      settle (hostBmw u addr b s) = .next s) ∧
    (addr.toNat < s.bufSize u.buf → ¬((s.status u).busy = true ∧ FootprintByte s u addr.toNat) →
      (∀ v, memGet (s.buf u.buf) addr.toNat = some v →
        settle (hostBmr u addr s) = .next { s with hostLog := s.hostLog ++ [.byte u addr v] }) ∧
      (memGet (s.buf u.buf) addr.toNat = none →
        settle (hostBmr u addr s) = .fault (.unwrittenRead u.buf addr.toNat)) ∧
      ∃ m : Memory,
        settle (hostBmw u addr b s) =
          .next (match u with | .pcu => { s with pbm := m } | .fsu => { s with fbm := m }) ∧
        memGet m addr.toNat = some b ∧ ∀ a, a ≠ addr.toNat → memGet m a = memGet (s.buf u.buf) a)

/-- R241: a host buffer access is a footprint hazard exactly when the unit is BUSY and the byte lies in the footprint of
its latched command and inside the memory. For a read of a byte that also holds no value, that the fault is the hazard
and not UnwrittenRead is the model's choice (log 9, DESIGN CHOICE). -/
def Obligations.FootprintHazardExactly : Prop :=
  ∀ (s : State) (u : UnitId) (addr : Word) (b : Byte), s.mfault = none →
    (settle (hostBmr u addr s) = .fault (.footprintHazard u u.buf addr.toNat) ↔
      (s.status u).busy = true ∧ addr.toNat < s.bufSize u.buf ∧ FootprintByte s u addr.toNat) ∧
    (settle (hostBmw u addr b s) = .fault (.footprintHazard u u.buf addr.toNat) ↔
      (s.status u).busy = true ∧ addr.toNat < s.bufSize u.buf ∧ FootprintByte s u addr.toNat)

/-- R188: a transaction on one unit's registers or memory never changes the other unit's state. -/
def Obligations.TransactionsStayInTheirUnit : Prop :=
  ∀ (s t : State) (x : Transaction), settle (hostStep x s) = .next t →
    ((∃ off v, x = .wr off v ∧ off < 0x40) ∨ (∃ a b, x = .bmw .pcu a b) → SameFsu s t) ∧
    ((∃ off v, x = .wr off v ∧ 0x40 ≤ off) ∨ (∃ a b, x = .bmw .fsu a b) → SamePcu s t) ∧
    ((∃ off, x = .rd off) ∨ (∃ u a, x = .bmr u a) → SamePcu s t ∧ SameFsu s t)

/-- R189, R48: no host transaction but an issue changes a latch or a phase: while a unit is BUSY, no host transaction
changes its running command. -/
def Obligations.BusyCommandIsUntouchedByHost : Prop :=
  ∀ (s t : State) (x : Transaction), settle (hostStep x s) = .next t →
    (s.pcu.status.busy = true → t.latPcu = s.latPcu ∧ t.phasePcu = s.phasePcu) ∧
    (s.fsu.status.busy = true → t.latFsu = s.latFsu ∧ t.phaseFsu = s.phaseFsu ∧
      t.fsu.txSent = s.fsu.txSent ∧ t.fsu.txCalls = s.fsu.txCalls)

/-! ### Reset -/

/-- R230, R233: after reset every register reads 0, both phases are Idle, no buffer byte holds a value, and an open
session has been closed without a flush; the fault record, the earlier trace and the parameters are kept. So are the
agent steps to come, the transport's answers to come and the record of the host's reads, which are the model's own fields
and no state of the block (logs 2, 4, 10, DESIGN CHOICE): a run goes on after a reset (R77). -/
def Obligations.ResetStepEffect : Prop :=
  ∀ s : State, s.mfault = none → ∃ t, settle (resetBlock s) = .next t ∧
    (∀ off, t.readOffset off = 0) ∧
    t.phasePcu = .idle ∧ t.phaseFsu = .idle ∧ t.txOpen = false ∧
    (∀ a, memGet t.pbm a = none ∧ memGet t.fbm a = none) ∧
    (s.txOpen = true → t.txTrace = s.txTrace ++ [.txClose]) ∧
    (s.txOpen = false → t.txTrace = s.txTrace) ∧
    t.mfault = s.mfault ∧ t.pbmSize = s.pbmSize ∧ t.fbmSize = s.fbmSize ∧
    t.agenda = s.agenda ∧ t.writeAnswers = s.writeAnswers ∧ t.flushAnswers = s.flushAnswers ∧ t.hostLog = s.hostLog

/-- R235: what commands issued with the reset values do, for every size of FBM: DEC_BUF and ENC_BUF fail with
INVALID_ARGUMENTS, BUILD builds the 5-byte frame 0A 00 00 00 00 at address 0 when FBM_SIZE >= 5 and fails with
RANGE_ERROR otherwise, SEND makes no write attempt and flushes. That the whole trace is then SEND's three events rests
on the empty trace of State.reset, the model's choice (log 11, DESIGN CHOICE). -/
def Obligations.CommandsAtResetValues : Prop :=
  ∀ (size : Nat) (s : State), s = { State.reset with fbmSize := size } →
    (∀ hdr, ∃ t, exec (.decBuf hdr) (issue .pcu (encode (.decBuf hdr)) s) = .next t ∧
      t.pcu.status.ecode = .invalidArguments) ∧
    (∃ t, exec .encBuf (issue .pcu (encode .encBuf) s) = .next t ∧ t.pcu.status.ecode = .invalidArguments) ∧
    (5 ≤ size → ∃ t, exec .build (issue .fsu (encode .build) s) = .next t ∧
      t.fsu.status.ecode = .none ∧ t.fsu.frmLen = 5 ∧
      memRead t.fbm 0 5 = .ok [0x0A#8, 0#8, 0#8, 0#8, 0#8]) ∧
    (size < 5 → ∃ t, exec .build (issue .fsu (encode .build) s) = .next t ∧
      t.fsu.status.ecode = .rangeError ∧ t.fbm = []) ∧
    (∃ t u f, exec .send (issue .fsu (encode .send) s) = .next t ∧ exec .send t = .next u ∧
      u.txTrace = [.txOpen, .txFlush f, .txClose] ∧ u.fsu.txCalls = 0)

/-! ### The whole block -/

/-- The reset state meets both invariants, and every register of it reads 0 (R24, R230, R231). That it meets the
session invariant rests on its empty trace, the model's choice (log 11, DESIGN CHOICE: the spec does not say what
tx_trace is at the start of a run). -/
def Obligations.ResetStateMeetsInvariants : Prop :=
  State.reset.Inv ∧ State.reset.SessionInv ∧ (∀ off, State.reset.readOffset off = 0) ∧
  State.reset.phasePcu = .idle ∧ State.reset.phaseFsu = .idle ∧ State.reset.txOpen = false ∧
  State.reset.mfault = none ∧ State.reset.pbm = [] ∧ State.reset.fbm = []

/-- Every step of every agent keeps the invariant of the registers, phases and memories (R28, R36, R37, R46 to R50,
R60, R203): BUSY exactly while a command runs and never with DONE or a code, the session open exactly while Writing, the
send offset inside the frame, each unit's own codes, canonical memories inside their sizes. -/
def Obligations.StepKeepsInvariant : Prop :=
  ∀ s t : State, s.Inv → step s = .next t → t.Inv

/-- Every step of every agent keeps the session invariant (R149, R152, R159, R163, R233): sessions are opened once and
closed once, never interleaved, and while a SEND is in its loop the transport has taken exactly the frame's first
TX_SENT bytes as they stand in FBM, whatever the host and the PCU do in between. -/
def Obligations.StepKeepsSession : Prop :=
  ∀ s t : State, s.Inv → s.SessionInv → step s = .next t → t.SessionInv

/-- R79, R216: a PCU turn and an FSU turn commute. -/
def Obligations.UnitTurnsCommute : Prop :=
  ∀ s t : State, (∃ a, pcuStep s = .next a ∧ fsuStep a = .next t) ↔ (∃ b, fsuStep s = .next b ∧ pcuStep b = .next t)

/-- R48, R52, R216: a unit's turn never changes the other unit's side. -/
def Obligations.UnitTurnsStayInTheirUnit : Prop :=
  ∀ s t : State, (pcuStep s = .next t → SameFsu s t ∧ SameOutside s t) ∧ (fsuStep s = .next t → SamePcu s t)

/-- R5, R50, R51: no step changes a parameter or shortens the trace, and a step that answers a next state had no fault
recorded before it and has none after it, so no step forgets one (log 1). -/
def Obligations.StepKeepsParameters : Prop :=
  ∀ s t : State, step s = .next t →
    t.pbmSize = s.pbmSize ∧ t.fbmSize = s.fbmSize ∧ s.mfault = none ∧ t.mfault = none ∧ ∃ more, t.txTrace = s.txTrace ++ more

/-- R63, R64: the two range tests say what they mean of bytes: a range is in range when every byte of it lies in the
memory, and two ranges overlap when they share a byte. -/
def Obligations.RangeTestsMeanBytes : Prop :=
  (∀ size a n : Nat, inRange size a n = true ↔ ∀ k, a ≤ k → k < a + n → k < size) ∧
  (∀ a1 n1 a2 n2 : Nat, overlaps a1 n1 a2 n2 = true ↔
    ∃ k, a1 ≤ k ∧ k < a1 + n1 ∧ a2 ≤ k ∧ k < a2 + n2)
end

