-- ==== Sys2Proof/Laws/Encoding.lean ====
section
/-! SUPPORT. What the encoding tables give once and for all: every command is well formed, and a decoded command
belongs to the unit it was decoded for. -/

namespace Sys2Proof

/-- The type of commands admits no ill-formed term. -/
theorem Instr.wf_all (i : Instr) : i.wf = true := by
  cases i with
  | decBuf hdr => cases hdr <;> decide
  | decPix => decide
  | encPix => decide
  | encBuf => decide
  | build => decide
  | send => decide

theorem plainCommand_legal {i j : Instr} {hdr : Bool} (h : plainCommand i hdr = .legal j) : j = i ∧ hdr = false := by
  cases hdr <;> simp_all [plainCommand]

/-- The PCU's decoder gives PCU commands only (R82). -/
theorem decode_pcu_cases {w : Word} {i : Instr} (h : decode .pcu w = .legal i) :
    i = .decPix ∨ i = .encPix ∨ (∃ hdr, i = .decBuf hdr) ∨ i = .encBuf := by
  simp only [decode] at h
  split at h
  · simp only [decodePcu] at h
    split at h
    · exact .inl (plainCommand_legal h).1
    · split at h
      · exact .inr (.inl (plainCommand_legal h).1)
      · split at h
        · exact .inr (.inr (.inl ⟨_, (Decoded.legal.inj h).symm⟩))
        · split at h
          · exact .inr (.inr (.inr (plainCommand_legal h).1))
          · cases h
  · cases h

/-- The FSU's decoder gives FSU commands only (R83). -/
theorem decode_fsu_cases {w : Word} {i : Instr} (h : decode .fsu w = .legal i) : i = .build ∨ i = .send := by
  simp only [decode] at h
  split at h
  · simp only [decodeFsu] at h
    split at h
    · exact .inl (plainCommand_legal h).1
    · split at h
      · exact .inr (plainCommand_legal h).1
      · cases h
  · cases h

/-- A decoded command belongs to the unit it was decoded for (R81). -/
theorem decode_unit {u : UnitId} {w : Word} {i : Instr} (h : decode u w = .legal i) : i.unit = u := by
  cases u with
  | pcu => rcases decode_pcu_cases h with rfl | rfl | ⟨_, rfl⟩ | rfl <;> rfl
  | fsu => rcases decode_fsu_cases h with rfl | rfl <;> rfl

/-- Bits 7:0 of a word put together from fields (R80). -/
theorem word_op (op : BitVec 8) (hdr : BitVec 1) (res : BitVec 23) : (res ++ hdr ++ op).extractLsb 7 0 = op := by
  apply BitVec.eq_of_getLsbD_eq
  intro i hi
  rw [BitVec.getLsbD_extractLsb, BitVec.getLsbD_append, if_pos (by omega)]
  simp; omega

/-- Bit 8 of a word put together from fields (R80). -/
theorem word_hdr (op : BitVec 8) (hdr : Bool) (res : BitVec 23) :
    (res ++ BitVec.ofBool hdr ++ op).getLsbD 8 = hdr := by
  rw [BitVec.getLsbD_append, BitVec.getLsbD_append]; simp

/-- Bits 31:9 of a word put together from fields (R80). -/
theorem word_res (op : BitVec 8) (hdr : BitVec 1) (res : BitVec 23) : (res ++ hdr ++ op).extractLsb 31 9 = res := by
  apply BitVec.eq_of_getLsbD_eq
  intro i hi
  rw [BitVec.getLsbD_extractLsb, BitVec.getLsbD_append, if_neg (by omega), BitVec.getLsbD_append,
    if_neg (by omega), show 9 + i - 8 - 1 = i by omega]
  simp; omega

/-- A word put together from fields has those fields (R80). -/
theorem fieldsOf_wordOf (f : CmdFields) : fieldsOf (wordOf f) = f := by
  obtain ⟨op, hdr, res⟩ := f
  simp only [fieldsOf, wordOf, CmdFields.mk.injEq]
  exact ⟨word_op op _ res, word_hdr op hdr res, word_res op _ res⟩

end Sys2Proof
end

