-- ==== Sys2Proof/Laws/Memory.lean ====
section
/-! SUPPORT. The laws of the memory primitives (00_scope.md R11): read after write, the canonical form, the frame. -/

namespace Sys2Proof.Machine

theorem memGet_memSet (m : Memory) (a k : Nat) (b : Byte) :
    memGet (memSet m a b) k = if k = a then some b else memGet m k := by
  induction m with
  | nil => simp [memSet, memGet]
  | cons c rest ih =>
    obtain ⟨i, v⟩ := c
    unfold memSet
    split
    · simp [memGet]
    · split
      · next h => subst h; simp only [memGet]; split <;> rfl
      · next h =>
        simp only [memGet, ih]
        split
        · next h' => subst h'; rw [if_neg (Ne.symm h)]
        · rfl

@[simp] theorem memGet_memSet_same (m : Memory) (a : Nat) (b : Byte) : memGet (memSet m a b) a = some b := by
  simp [memGet_memSet]

theorem memGet_memSet_other (m : Memory) {a k : Nat} (b : Byte) (h : k ≠ a) :
    memGet (memSet m a b) k = memGet m k := by
  simp [memGet_memSet, h]

theorem mem_memSet {m : Memory} {a : Nat} {b : Byte} {c : Host.Cell} (h : c ∈ memSet m a b) :
    c = (a, b) ∨ c ∈ m := by
  induction m with
  | nil => simpa [memSet] using h
  | cons d rest ih =>
    obtain ⟨i, v⟩ := d
    unfold memSet at h
    split at h
    · simpa using h
    · split at h
      · rcases List.mem_cons.1 h with h | h <;> simp [h]
      · rcases List.mem_cons.1 h with h | h
        · simp [h]
        · rcases ih h with h | h <;> simp [h]

/-- Setting a byte keeps the canonical form. -/
theorem memSet_wf {m : Memory} (a : Nat) (b : Byte) (h : m.wf) : (memSet m a b).wf := by
  induction m with
  | nil => simp [memSet]
  | cons d rest ih =>
    obtain ⟨i, v⟩ := d
    obtain ⟨hd, hr⟩ := List.pairwise_cons.1 h
    unfold memSet
    split
    · next hlt =>
      refine List.pairwise_cons.2 ⟨fun c hc => ?_, h⟩
      rcases List.mem_cons.1 hc with rfl | hc
      · exact hlt
      · exact lt_trans hlt (hd c hc)
    · next hlt =>
      split
      · next heq => subst heq; exact List.pairwise_cons.2 ⟨hd, hr⟩
      · next hne =>
        refine List.pairwise_cons.2 ⟨fun c hc => ?_, ih hr⟩
        rcases mem_memSet hc with rfl | hc
        · show i < a
          omega
        · exact hd c hc

/-- Every byte of a written memory lies inside when the old ones and the new one do. -/
theorem memSet_inside {m : Memory} {a size : Nat} {b : Byte} (ha : a < size) (h : ∀ c ∈ m, c.1 < size) :
    ∀ c ∈ memSet m a b, c.1 < size := by
  intro c hc
  rcases mem_memSet hc with rfl | hc
  · exact ha
  · exact h c hc

theorem memWrite_wf {m : Memory} (a : Nat) (bs : List Byte) (h : m.wf) : (memWrite m a bs).wf := by
  induction bs generalizing m a with
  | nil => exact h
  | cons b bs ih => exact ih (a + 1) (memSet_wf a b h)

theorem memWrite_inside {m : Memory} {a size : Nat} {bs : List Byte} (hr : bs = [] ∨ a + bs.length ≤ size)
    (h : ∀ c ∈ m, c.1 < size) : ∀ c ∈ memWrite m a bs, c.1 < size := by
  induction bs generalizing m a with
  | nil => exact h
  | cons b bs ih =>
    have hlen : a + (bs.length + 1) ≤ size := by simpa using hr
    exact ih (by right; omega) (memSet_inside (by omega) h)

/-- A byte of a written memory: the byte written there, else the byte that was there. -/
theorem memGet_memWrite (m : Memory) (a : Nat) (bs : List Byte) (k : Nat) :
    memGet (memWrite m a bs) k = if a ≤ k ∧ k < a + bs.length then bs[k - a]? else memGet m k := by
  induction bs generalizing m a with
  | nil => simp [memWrite]
  | cons b bs ih =>
    simp only [memWrite, ih, memGet_memSet, List.length_cons]
    by_cases h1 : a + 1 ≤ k ∧ k < a + 1 + bs.length
    · obtain ⟨j, rfl⟩ : ∃ j, k = a + 1 + j := ⟨k - (a + 1), by omega⟩
      rw [if_pos h1, if_pos (by omega), show a + 1 + j - (a + 1) = j by omega, show a + 1 + j - a = j + 1 by omega,
        List.getElem?_cons_succ]
    · rw [if_neg h1]
      by_cases h2 : k = a
      · subst h2; rw [if_pos rfl, if_pos (by omega)]; simp
      · rw [if_neg h2, if_neg (by omega)]

theorem memGet_memWrite_outside (m : Memory) {a k : Nat} {bs : List Byte} (h : k < a ∨ a + bs.length ≤ k) :
    memGet (memWrite m a bs) k = memGet m k := by
  rw [memGet_memWrite, if_neg (by omega)]

theorem memGet_memWrite_at (m : Memory) {a i : Nat} {bs : List Byte} (h : i < bs.length) :
    memGet (memWrite m a bs) (a + i) = some bs[i] := by
  rw [memGet_memWrite, if_pos (by omega), Nat.add_sub_cancel_left, List.getElem?_eq_getElem h]

/-! ### Reading a range -/

theorem memRead_length {m : Memory} {a n : Nat} {bs : List Byte} (h : memRead m a n = .ok bs) : bs.length = n := by
  induction n generalizing a bs with
  | zero => simp [memRead] at h; simp [← h]
  | succ n ih =>
    unfold memRead at h
    split at h
    · cases h
    · split at h
      · cases h
      · next h' => cases h; simp [ih h']

/-- Reading depends on nothing but the bytes of the range. -/
theorem memRead_congr {m m' : Memory} {a n : Nat} (h : ∀ i < n, memGet m (a + i) = memGet m' (a + i)) :
    memRead m a n = memRead m' a n := by
  induction n generalizing a with
  | zero => rfl
  | succ n ih =>
    have h0 := h 0 (by omega)
    rw [Nat.add_zero] at h0
    have hr := ih (a := a + 1) (fun i hi => by
      have := h (i + 1) (by omega)
      rwa [show a + (i + 1) = a + 1 + i by omega] at this)
    simp only [memRead, h0, hr]

/-- A read that succeeds gives each byte of the range. -/
theorem memRead_get {m : Memory} {a n : Nat} {bs : List Byte} (h : memRead m a n = .ok bs) {i : Nat} (hi : i < n) :
    memGet m (a + i) = bs[i]? := by
  induction n generalizing a bs i with
  | zero => omega
  | succ n ih =>
    unfold memRead at h
    split at h
    · cases h
    · next b hb =>
      split at h
      · cases h
      · next bs' h' =>
        cases h
        cases i with
        | zero => simpa using hb
        | succ i =>
          have := ih h' (i := i) (by omega)
          rw [show a + (i + 1) = a + 1 + i by omega, this]
          simp

/-- A range whose bytes all hold values reads as them. -/
theorem memRead_of_get {m : Memory} {a : Nat} {bs : List Byte}
    (h : ∀ i < bs.length, memGet m (a + i) = bs[i]?) : memRead m a bs.length = .ok bs := by
  induction bs generalizing a with
  | nil => rfl
  | cons b bs ih =>
    have h0 : memGet m a = some b := by simpa using h 0 (by simp)
    have hr := ih (a := a + 1) (fun i hi => by
      have := h (i + 1) (by simpa using hi)
      rwa [show a + (i + 1) = a + 1 + i by omega, List.getElem?_cons_succ] at this)
    simp [memRead, h0, hr]

/-- A read fails with address `k` exactly when `k` is the lowest address of the range that holds no value (R66,
log 8). -/
theorem memRead_error_iff {m : Memory} {a n k : Nat} :
    memRead m a n = .error k ↔
      a ≤ k ∧ k < a + n ∧ memGet m k = none ∧ ∀ j, a ≤ j → j < k → memGet m j ≠ none := by
  induction n generalizing a with
  | zero => simp [memRead]; omega
  | succ n ih =>
    unfold memRead
    split
    · next hb =>
      constructor
      · intro h; cases h; exact ⟨le_rfl, by omega, hb, fun j h1 h2 => by omega⟩
      · rintro ⟨h1, -, -, h4⟩
        by_contra hne
        exact h4 a le_rfl (by grind) hb
    · next b hb =>
      have key : memRead m (a + 1) n = .error k ↔
          a ≤ k ∧ k < a + (n + 1) ∧ memGet m k = none ∧ ∀ j, a ≤ j → j < k → memGet m j ≠ none := by
        rw [ih]
        constructor
        · rintro ⟨h1, h2, h3, h4⟩
          refine ⟨by omega, by omega, h3, fun j g1 g2 => ?_⟩
          rcases Nat.eq_or_lt_of_le g1 with rfl | g
          · simp [hb]
          · exact h4 j g g2
        · rintro ⟨h1, h2, h3, h4⟩
          have : k ≠ a := fun e => by subst e; simp [hb] at h3
          exact ⟨by omega, by omega, h3, fun j g1 g2 => h4 j (by omega) g2⟩
      rw [← key]
      split <;> simp_all

/-- A read that fails names an address of the range that holds no value (R66). -/
theorem memRead_error {m : Memory} {a n k : Nat} (h : memRead m a n = .error k) :
    a ≤ k ∧ k < a + n ∧ memGet m k = none :=
  let ⟨h1, h2, h3, _⟩ := memRead_error_iff.1 h
  ⟨h1, h2, h3⟩

/-- Two adjoining ranges read as one. -/
theorem memRead_append {m : Memory} {a i j : Nat} {bs cs : List Byte} (h1 : memRead m a i = .ok bs)
    (h2 : memRead m (a + i) j = .ok cs) : memRead m a (i + j) = .ok (bs ++ cs) := by
  have l1 := memRead_length h1
  have l2 := memRead_length h2
  have := memRead_of_get (m := m) (a := a) (bs := bs ++ cs) (fun k hk => by
    rw [List.length_append] at hk
    by_cases h : k < i
    · rw [memRead_get h1 h, List.getElem?_append_left (by omega)]
    · have := memRead_get h2 (i := k - i) (by omega)
      rw [show a + i + (k - i) = a + k by omega] at this
      rw [this, List.getElem?_append_right (by omega), l1])
  rwa [List.length_append, l1, l2] at this

/-- The first part of a range that reads reads as the first part of it. -/
theorem memRead_take {m : Memory} {a n k : Nat} {bs : List Byte} (h : memRead m a n = .ok bs) (hk : k ≤ n) :
    memRead m a k = .ok (bs.take k) := by
  have l := memRead_length h
  have := memRead_of_get (m := m) (a := a) (bs := bs.take k) (fun i hi => by
    rw [List.length_take] at hi
    rw [memRead_get h (by omega), List.getElem?_take_of_lt (by omega)])
  rwa [List.length_take, l, Nat.min_eq_left hk] at this

/-- What was written is what is read (R11). -/
theorem memRead_memWrite (m : Memory) (a : Nat) (bs : List Byte) :
    memRead (memWrite m a bs) a bs.length = .ok bs :=
  memRead_of_get fun i hi => by rw [memGet_memWrite_at m hi, List.getElem?_eq_getElem hi]

/-! ### One canonical form -/

theorem memGet_mem {m : Memory} {a : Nat} {b : Byte} (h : memGet m a = some b) : (a, b) ∈ m := by
  induction m with
  | nil => cases h
  | cons d rest ih =>
    obtain ⟨i, v⟩ := d
    unfold memGet at h
    split at h
    · next h' => cases h; simp [h']
    · simp [ih h]

theorem memGet_of_mem {m : Memory} (hwf : m.wf) {a : Nat} {b : Byte} (h : (a, b) ∈ m) : memGet m a = some b := by
  induction m with
  | nil => cases h
  | cons d rest ih =>
    obtain ⟨i, v⟩ := d
    obtain ⟨hd, hr⟩ := List.pairwise_cons.1 hwf
    unfold memGet
    rcases List.mem_cons.1 h with h | h
    · cases h; simp
    · have : i < a := hd _ h
      rw [if_neg (by omega)]
      exact ih hr h

/-- Memories in canonical form that read the same at every address are equal data. -/
theorem memory_ext {m m' : Memory} (h : m.wf) (h' : m'.wf) (heq : ∀ a, memGet m a = memGet m' a) : m = m' := by
  have hmem : ∀ c, c ∈ m ↔ c ∈ m' := fun ⟨a, b⟩ =>
    ⟨fun hc => memGet_mem (heq a ▸ memGet_of_mem h hc), fun hc => memGet_mem (heq a ▸ memGet_of_mem h' hc)⟩
  have nd : ∀ {m : Memory}, m.wf → m.Nodup := fun hw =>
    hw.imp fun hlt heq => by rw [heq] at hlt; exact lt_irrefl _ hlt
  exact ((List.perm_ext_iff_of_nodup (nd h) (nd h')).2 hmem).eq_of_pairwise
    (fun x y _ _ hxy hyx => absurd hxy (by omega)) h h'

/-- The memories of the reset state have the canonical form. -/
theorem reset_memories_wf : State.reset.pbm.wf ∧ State.reset.fbm.wf := by
  constructor <;> exact List.Pairwise.nil

end Sys2Proof.Machine
end

