-- ==== Sys2Proof/Laws/State.lean ====
section
/-! SUPPORT. What each named update does to each field of State: one lemma a field, so that no later proof unfolds a
record update. -/

namespace Sys2Proof.Machine

/-! ### Completion (R205, R206) -/

@[simp] theorem completeOk_pcu_pcu (s : State) : (completeOk .pcu s).pcu = { s.pcu with status := s.pcu.status.completed .none, errActual := 0, errExpected := 0 } := rfl
@[simp] theorem completeOk_pcu_fsu (s : State) : (completeOk .pcu s).fsu = s.fsu := rfl
@[simp] theorem completeOk_pcu_phasePcu (s : State) : (completeOk .pcu s).phasePcu = .idle := rfl
@[simp] theorem completeOk_pcu_latPcu (s : State) : (completeOk .pcu s).latPcu = s.latPcu := rfl
@[simp] theorem completeOk_pcu_phaseFsu (s : State) : (completeOk .pcu s).phaseFsu = s.phaseFsu := rfl
@[simp] theorem completeOk_pcu_latFsu (s : State) : (completeOk .pcu s).latFsu = s.latFsu := rfl
@[simp] theorem completeOk_pcu_txOpen (s : State) : (completeOk .pcu s).txOpen = s.txOpen := rfl
@[simp] theorem completeOk_pcu_txTrace (s : State) : (completeOk .pcu s).txTrace = s.txTrace := rfl
@[simp] theorem completeOk_pcu_mfault (s : State) : (completeOk .pcu s).mfault = s.mfault := rfl
@[simp] theorem completeOk_pcu_pbm (s : State) : (completeOk .pcu s).pbm = s.pbm := rfl
@[simp] theorem completeOk_pcu_fbm (s : State) : (completeOk .pcu s).fbm = s.fbm := rfl
@[simp] theorem completeOk_pcu_pbmSize (s : State) : (completeOk .pcu s).pbmSize = s.pbmSize := rfl
@[simp] theorem completeOk_pcu_fbmSize (s : State) : (completeOk .pcu s).fbmSize = s.fbmSize := rfl
@[simp] theorem completeOk_pcu_agenda (s : State) : (completeOk .pcu s).agenda = s.agenda := rfl
@[simp] theorem completeOk_pcu_writeAnswers (s : State) : (completeOk .pcu s).writeAnswers = s.writeAnswers := rfl
@[simp] theorem completeOk_pcu_flushAnswers (s : State) : (completeOk .pcu s).flushAnswers = s.flushAnswers := rfl
@[simp] theorem completeOk_pcu_draws (s : State) : (completeOk .pcu s).draws = s.draws := rfl
@[simp] theorem completeOk_pcu_hostLog (s : State) : (completeOk .pcu s).hostLog = s.hostLog := rfl
@[simp] theorem completeOk_fsu_pcu (s : State) : (completeOk .fsu s).pcu = s.pcu := rfl
@[simp] theorem completeOk_fsu_fsu (s : State) : (completeOk .fsu s).fsu = { s.fsu with status := s.fsu.status.completed .none } := rfl
@[simp] theorem completeOk_fsu_phasePcu (s : State) : (completeOk .fsu s).phasePcu = s.phasePcu := rfl
@[simp] theorem completeOk_fsu_latPcu (s : State) : (completeOk .fsu s).latPcu = s.latPcu := rfl
@[simp] theorem completeOk_fsu_phaseFsu (s : State) : (completeOk .fsu s).phaseFsu = .idle := rfl
@[simp] theorem completeOk_fsu_latFsu (s : State) : (completeOk .fsu s).latFsu = s.latFsu := rfl
@[simp] theorem completeOk_fsu_txOpen (s : State) : (completeOk .fsu s).txOpen = s.txOpen := rfl
@[simp] theorem completeOk_fsu_txTrace (s : State) : (completeOk .fsu s).txTrace = s.txTrace := rfl
@[simp] theorem completeOk_fsu_mfault (s : State) : (completeOk .fsu s).mfault = s.mfault := rfl
@[simp] theorem completeOk_fsu_pbm (s : State) : (completeOk .fsu s).pbm = s.pbm := rfl
@[simp] theorem completeOk_fsu_fbm (s : State) : (completeOk .fsu s).fbm = s.fbm := rfl
@[simp] theorem completeOk_fsu_pbmSize (s : State) : (completeOk .fsu s).pbmSize = s.pbmSize := rfl
@[simp] theorem completeOk_fsu_fbmSize (s : State) : (completeOk .fsu s).fbmSize = s.fbmSize := rfl
@[simp] theorem completeOk_fsu_agenda (s : State) : (completeOk .fsu s).agenda = s.agenda := rfl
@[simp] theorem completeOk_fsu_writeAnswers (s : State) : (completeOk .fsu s).writeAnswers = s.writeAnswers := rfl
@[simp] theorem completeOk_fsu_flushAnswers (s : State) : (completeOk .fsu s).flushAnswers = s.flushAnswers := rfl
@[simp] theorem completeOk_fsu_draws (s : State) : (completeOk .fsu s).draws = s.draws := rfl
@[simp] theorem completeOk_fsu_hostLog (s : State) : (completeOk .fsu s).hostLog = s.hostLog := rfl
@[simp] theorem raise_pcu_pcu (e : CmdError) (s : State) : (raise .pcu e s).pcu = { s.pcu with status := s.pcu.status.completed e.code, errActual := e.actual, errExpected := e.expected } := rfl
@[simp] theorem raise_pcu_fsu (e : CmdError) (s : State) : (raise .pcu e s).fsu = s.fsu := rfl
@[simp] theorem raise_pcu_phasePcu (e : CmdError) (s : State) : (raise .pcu e s).phasePcu = .idle := rfl
@[simp] theorem raise_pcu_latPcu (e : CmdError) (s : State) : (raise .pcu e s).latPcu = s.latPcu := rfl
@[simp] theorem raise_pcu_phaseFsu (e : CmdError) (s : State) : (raise .pcu e s).phaseFsu = s.phaseFsu := rfl
@[simp] theorem raise_pcu_latFsu (e : CmdError) (s : State) : (raise .pcu e s).latFsu = s.latFsu := rfl
@[simp] theorem raise_pcu_txOpen (e : CmdError) (s : State) : (raise .pcu e s).txOpen = s.txOpen := rfl
@[simp] theorem raise_pcu_txTrace (e : CmdError) (s : State) : (raise .pcu e s).txTrace = s.txTrace := rfl
@[simp] theorem raise_pcu_mfault (e : CmdError) (s : State) : (raise .pcu e s).mfault = s.mfault := rfl
@[simp] theorem raise_pcu_pbm (e : CmdError) (s : State) : (raise .pcu e s).pbm = s.pbm := rfl
@[simp] theorem raise_pcu_fbm (e : CmdError) (s : State) : (raise .pcu e s).fbm = s.fbm := rfl
@[simp] theorem raise_pcu_pbmSize (e : CmdError) (s : State) : (raise .pcu e s).pbmSize = s.pbmSize := rfl
@[simp] theorem raise_pcu_fbmSize (e : CmdError) (s : State) : (raise .pcu e s).fbmSize = s.fbmSize := rfl
@[simp] theorem raise_pcu_agenda (e : CmdError) (s : State) : (raise .pcu e s).agenda = s.agenda := rfl
@[simp] theorem raise_pcu_writeAnswers (e : CmdError) (s : State) : (raise .pcu e s).writeAnswers = s.writeAnswers := rfl
@[simp] theorem raise_pcu_flushAnswers (e : CmdError) (s : State) : (raise .pcu e s).flushAnswers = s.flushAnswers := rfl
@[simp] theorem raise_pcu_draws (e : CmdError) (s : State) : (raise .pcu e s).draws = s.draws := rfl
@[simp] theorem raise_pcu_hostLog (e : CmdError) (s : State) : (raise .pcu e s).hostLog = s.hostLog := rfl
@[simp] theorem raise_fsu_pcu (e : CmdError) (s : State) : (raise .fsu e s).pcu = s.pcu := rfl
@[simp] theorem raise_fsu_fsu (e : CmdError) (s : State) : (raise .fsu e s).fsu = { s.fsu with status := s.fsu.status.completed e.code } := rfl
@[simp] theorem raise_fsu_phasePcu (e : CmdError) (s : State) : (raise .fsu e s).phasePcu = s.phasePcu := rfl
@[simp] theorem raise_fsu_latPcu (e : CmdError) (s : State) : (raise .fsu e s).latPcu = s.latPcu := rfl
@[simp] theorem raise_fsu_phaseFsu (e : CmdError) (s : State) : (raise .fsu e s).phaseFsu = .idle := rfl
@[simp] theorem raise_fsu_latFsu (e : CmdError) (s : State) : (raise .fsu e s).latFsu = s.latFsu := rfl
@[simp] theorem raise_fsu_txOpen (e : CmdError) (s : State) : (raise .fsu e s).txOpen = s.txOpen := rfl
@[simp] theorem raise_fsu_txTrace (e : CmdError) (s : State) : (raise .fsu e s).txTrace = s.txTrace := rfl
@[simp] theorem raise_fsu_mfault (e : CmdError) (s : State) : (raise .fsu e s).mfault = s.mfault := rfl
@[simp] theorem raise_fsu_pbm (e : CmdError) (s : State) : (raise .fsu e s).pbm = s.pbm := rfl
@[simp] theorem raise_fsu_fbm (e : CmdError) (s : State) : (raise .fsu e s).fbm = s.fbm := rfl
@[simp] theorem raise_fsu_pbmSize (e : CmdError) (s : State) : (raise .fsu e s).pbmSize = s.pbmSize := rfl
@[simp] theorem raise_fsu_fbmSize (e : CmdError) (s : State) : (raise .fsu e s).fbmSize = s.fbmSize := rfl
@[simp] theorem raise_fsu_agenda (e : CmdError) (s : State) : (raise .fsu e s).agenda = s.agenda := rfl
@[simp] theorem raise_fsu_writeAnswers (e : CmdError) (s : State) : (raise .fsu e s).writeAnswers = s.writeAnswers := rfl
@[simp] theorem raise_fsu_flushAnswers (e : CmdError) (s : State) : (raise .fsu e s).flushAnswers = s.flushAnswers := rfl
@[simp] theorem raise_fsu_draws (e : CmdError) (s : State) : (raise .fsu e s).draws = s.draws := rfl
@[simp] theorem raise_fsu_hostLog (e : CmdError) (s : State) : (raise .fsu e s).hostLog = s.hostLog := rfl

/-! ### Issue (R184) -/

@[simp] theorem issue_pcu_pcu (w : Word) (s : State) : (issue .pcu w s).pcu = { s.pcu with status := s.pcu.status.issued } := rfl
@[simp] theorem issue_pcu_fsu (w : Word) (s : State) : (issue .pcu w s).fsu = s.fsu := rfl
@[simp] theorem issue_pcu_phasePcu (w : Word) (s : State) : (issue .pcu w s).phasePcu = .pending := rfl
@[simp] theorem issue_pcu_latPcu (w : Word) (s : State) : (issue .pcu w s).latPcu = s.pcu.latch w := rfl
@[simp] theorem issue_pcu_phaseFsu (w : Word) (s : State) : (issue .pcu w s).phaseFsu = s.phaseFsu := rfl
@[simp] theorem issue_pcu_latFsu (w : Word) (s : State) : (issue .pcu w s).latFsu = s.latFsu := rfl
@[simp] theorem issue_pcu_txOpen (w : Word) (s : State) : (issue .pcu w s).txOpen = s.txOpen := rfl
@[simp] theorem issue_pcu_txTrace (w : Word) (s : State) : (issue .pcu w s).txTrace = s.txTrace := rfl
@[simp] theorem issue_pcu_mfault (w : Word) (s : State) : (issue .pcu w s).mfault = s.mfault := rfl
@[simp] theorem issue_pcu_pbm (w : Word) (s : State) : (issue .pcu w s).pbm = s.pbm := rfl
@[simp] theorem issue_pcu_fbm (w : Word) (s : State) : (issue .pcu w s).fbm = s.fbm := rfl
@[simp] theorem issue_pcu_pbmSize (w : Word) (s : State) : (issue .pcu w s).pbmSize = s.pbmSize := rfl
@[simp] theorem issue_pcu_fbmSize (w : Word) (s : State) : (issue .pcu w s).fbmSize = s.fbmSize := rfl
@[simp] theorem issue_pcu_agenda (w : Word) (s : State) : (issue .pcu w s).agenda = s.agenda := rfl
@[simp] theorem issue_pcu_writeAnswers (w : Word) (s : State) : (issue .pcu w s).writeAnswers = s.writeAnswers := rfl
@[simp] theorem issue_pcu_flushAnswers (w : Word) (s : State) : (issue .pcu w s).flushAnswers = s.flushAnswers := rfl
@[simp] theorem issue_pcu_draws (w : Word) (s : State) : (issue .pcu w s).draws = s.draws := rfl
@[simp] theorem issue_pcu_hostLog (w : Word) (s : State) : (issue .pcu w s).hostLog = s.hostLog := rfl
@[simp] theorem issue_fsu_pcu (w : Word) (s : State) : (issue .fsu w s).pcu = s.pcu := rfl
@[simp] theorem issue_fsu_fsu (w : Word) (s : State) : (issue .fsu w s).fsu = { s.fsu with status := s.fsu.status.issued, txSent := 0, txCalls := 0 } := rfl
@[simp] theorem issue_fsu_phasePcu (w : Word) (s : State) : (issue .fsu w s).phasePcu = s.phasePcu := rfl
@[simp] theorem issue_fsu_latPcu (w : Word) (s : State) : (issue .fsu w s).latPcu = s.latPcu := rfl
@[simp] theorem issue_fsu_phaseFsu (w : Word) (s : State) : (issue .fsu w s).phaseFsu = .pending := rfl
@[simp] theorem issue_fsu_latFsu (w : Word) (s : State) : (issue .fsu w s).latFsu = s.fsu.latch w := rfl
@[simp] theorem issue_fsu_txOpen (w : Word) (s : State) : (issue .fsu w s).txOpen = s.txOpen := rfl
@[simp] theorem issue_fsu_txTrace (w : Word) (s : State) : (issue .fsu w s).txTrace = s.txTrace := rfl
@[simp] theorem issue_fsu_mfault (w : Word) (s : State) : (issue .fsu w s).mfault = s.mfault := rfl
@[simp] theorem issue_fsu_pbm (w : Word) (s : State) : (issue .fsu w s).pbm = s.pbm := rfl
@[simp] theorem issue_fsu_fbm (w : Word) (s : State) : (issue .fsu w s).fbm = s.fbm := rfl
@[simp] theorem issue_fsu_pbmSize (w : Word) (s : State) : (issue .fsu w s).pbmSize = s.pbmSize := rfl
@[simp] theorem issue_fsu_fbmSize (w : Word) (s : State) : (issue .fsu w s).fbmSize = s.fbmSize := rfl
@[simp] theorem issue_fsu_agenda (w : Word) (s : State) : (issue .fsu w s).agenda = s.agenda := rfl
@[simp] theorem issue_fsu_writeAnswers (w : Word) (s : State) : (issue .fsu w s).writeAnswers = s.writeAnswers := rfl
@[simp] theorem issue_fsu_flushAnswers (w : Word) (s : State) : (issue .fsu w s).flushAnswers = s.flushAnswers := rfl
@[simp] theorem issue_fsu_draws (w : Word) (s : State) : (issue .fsu w s).draws = s.draws := rfl
@[simp] theorem issue_fsu_hostLog (w : Word) (s : State) : (issue .fsu w s).hostLog = s.hostLog := rfl

/-! ### STATUS -/

@[simp] theorem setStatus_pcu_pcu (st : Status) (s : State) : (s.setStatus .pcu st).pcu = { s.pcu with status := st } := rfl
@[simp] theorem setStatus_pcu_fsu (st : Status) (s : State) : (s.setStatus .pcu st).fsu = s.fsu := rfl
@[simp] theorem setStatus_pcu_phasePcu (st : Status) (s : State) : (s.setStatus .pcu st).phasePcu = s.phasePcu := rfl
@[simp] theorem setStatus_pcu_latPcu (st : Status) (s : State) : (s.setStatus .pcu st).latPcu = s.latPcu := rfl
@[simp] theorem setStatus_pcu_phaseFsu (st : Status) (s : State) : (s.setStatus .pcu st).phaseFsu = s.phaseFsu := rfl
@[simp] theorem setStatus_pcu_latFsu (st : Status) (s : State) : (s.setStatus .pcu st).latFsu = s.latFsu := rfl
@[simp] theorem setStatus_pcu_txOpen (st : Status) (s : State) : (s.setStatus .pcu st).txOpen = s.txOpen := rfl
@[simp] theorem setStatus_pcu_txTrace (st : Status) (s : State) : (s.setStatus .pcu st).txTrace = s.txTrace := rfl
@[simp] theorem setStatus_pcu_mfault (st : Status) (s : State) : (s.setStatus .pcu st).mfault = s.mfault := rfl
@[simp] theorem setStatus_pcu_pbm (st : Status) (s : State) : (s.setStatus .pcu st).pbm = s.pbm := rfl
@[simp] theorem setStatus_pcu_fbm (st : Status) (s : State) : (s.setStatus .pcu st).fbm = s.fbm := rfl
@[simp] theorem setStatus_pcu_pbmSize (st : Status) (s : State) : (s.setStatus .pcu st).pbmSize = s.pbmSize := rfl
@[simp] theorem setStatus_pcu_fbmSize (st : Status) (s : State) : (s.setStatus .pcu st).fbmSize = s.fbmSize := rfl
@[simp] theorem setStatus_pcu_agenda (st : Status) (s : State) : (s.setStatus .pcu st).agenda = s.agenda := rfl
@[simp] theorem setStatus_pcu_writeAnswers (st : Status) (s : State) : (s.setStatus .pcu st).writeAnswers = s.writeAnswers := rfl
@[simp] theorem setStatus_pcu_flushAnswers (st : Status) (s : State) : (s.setStatus .pcu st).flushAnswers = s.flushAnswers := rfl
@[simp] theorem setStatus_pcu_draws (st : Status) (s : State) : (s.setStatus .pcu st).draws = s.draws := rfl
@[simp] theorem setStatus_pcu_hostLog (st : Status) (s : State) : (s.setStatus .pcu st).hostLog = s.hostLog := rfl
@[simp] theorem setStatus_fsu_pcu (st : Status) (s : State) : (s.setStatus .fsu st).pcu = s.pcu := rfl
@[simp] theorem setStatus_fsu_fsu (st : Status) (s : State) : (s.setStatus .fsu st).fsu = { s.fsu with status := st } := rfl
@[simp] theorem setStatus_fsu_phasePcu (st : Status) (s : State) : (s.setStatus .fsu st).phasePcu = s.phasePcu := rfl
@[simp] theorem setStatus_fsu_latPcu (st : Status) (s : State) : (s.setStatus .fsu st).latPcu = s.latPcu := rfl
@[simp] theorem setStatus_fsu_phaseFsu (st : Status) (s : State) : (s.setStatus .fsu st).phaseFsu = s.phaseFsu := rfl
@[simp] theorem setStatus_fsu_latFsu (st : Status) (s : State) : (s.setStatus .fsu st).latFsu = s.latFsu := rfl
@[simp] theorem setStatus_fsu_txOpen (st : Status) (s : State) : (s.setStatus .fsu st).txOpen = s.txOpen := rfl
@[simp] theorem setStatus_fsu_txTrace (st : Status) (s : State) : (s.setStatus .fsu st).txTrace = s.txTrace := rfl
@[simp] theorem setStatus_fsu_mfault (st : Status) (s : State) : (s.setStatus .fsu st).mfault = s.mfault := rfl
@[simp] theorem setStatus_fsu_pbm (st : Status) (s : State) : (s.setStatus .fsu st).pbm = s.pbm := rfl
@[simp] theorem setStatus_fsu_fbm (st : Status) (s : State) : (s.setStatus .fsu st).fbm = s.fbm := rfl
@[simp] theorem setStatus_fsu_pbmSize (st : Status) (s : State) : (s.setStatus .fsu st).pbmSize = s.pbmSize := rfl
@[simp] theorem setStatus_fsu_fbmSize (st : Status) (s : State) : (s.setStatus .fsu st).fbmSize = s.fbmSize := rfl
@[simp] theorem setStatus_fsu_agenda (st : Status) (s : State) : (s.setStatus .fsu st).agenda = s.agenda := rfl
@[simp] theorem setStatus_fsu_writeAnswers (st : Status) (s : State) : (s.setStatus .fsu st).writeAnswers = s.writeAnswers := rfl
@[simp] theorem setStatus_fsu_flushAnswers (st : Status) (s : State) : (s.setStatus .fsu st).flushAnswers = s.flushAnswers := rfl
@[simp] theorem setStatus_fsu_draws (st : Status) (s : State) : (s.setStatus .fsu st).draws = s.draws := rfl
@[simp] theorem setStatus_fsu_hostLog (st : Status) (s : State) : (s.setStatus .fsu st).hostLog = s.hostLog := rfl

/-! ### Buffer memories (R11, R60) -/

@[simp] theorem setBuf_pbm_pcu (m : Memory) (s : State) : (s.setBuf .pbm m).pcu = s.pcu := rfl
@[simp] theorem setBuf_pbm_fsu (m : Memory) (s : State) : (s.setBuf .pbm m).fsu = s.fsu := rfl
@[simp] theorem setBuf_pbm_phasePcu (m : Memory) (s : State) : (s.setBuf .pbm m).phasePcu = s.phasePcu := rfl
@[simp] theorem setBuf_pbm_latPcu (m : Memory) (s : State) : (s.setBuf .pbm m).latPcu = s.latPcu := rfl
@[simp] theorem setBuf_pbm_phaseFsu (m : Memory) (s : State) : (s.setBuf .pbm m).phaseFsu = s.phaseFsu := rfl
@[simp] theorem setBuf_pbm_latFsu (m : Memory) (s : State) : (s.setBuf .pbm m).latFsu = s.latFsu := rfl
@[simp] theorem setBuf_pbm_txOpen (m : Memory) (s : State) : (s.setBuf .pbm m).txOpen = s.txOpen := rfl
@[simp] theorem setBuf_pbm_txTrace (m : Memory) (s : State) : (s.setBuf .pbm m).txTrace = s.txTrace := rfl
@[simp] theorem setBuf_pbm_mfault (m : Memory) (s : State) : (s.setBuf .pbm m).mfault = s.mfault := rfl
@[simp] theorem setBuf_pbm_pbm (m : Memory) (s : State) : (s.setBuf .pbm m).pbm = m := rfl
@[simp] theorem setBuf_pbm_fbm (m : Memory) (s : State) : (s.setBuf .pbm m).fbm = s.fbm := rfl
@[simp] theorem setBuf_pbm_pbmSize (m : Memory) (s : State) : (s.setBuf .pbm m).pbmSize = s.pbmSize := rfl
@[simp] theorem setBuf_pbm_fbmSize (m : Memory) (s : State) : (s.setBuf .pbm m).fbmSize = s.fbmSize := rfl
@[simp] theorem setBuf_pbm_agenda (m : Memory) (s : State) : (s.setBuf .pbm m).agenda = s.agenda := rfl
@[simp] theorem setBuf_pbm_writeAnswers (m : Memory) (s : State) : (s.setBuf .pbm m).writeAnswers = s.writeAnswers := rfl
@[simp] theorem setBuf_pbm_flushAnswers (m : Memory) (s : State) : (s.setBuf .pbm m).flushAnswers = s.flushAnswers := rfl
@[simp] theorem setBuf_pbm_draws (m : Memory) (s : State) : (s.setBuf .pbm m).draws = s.draws := rfl
@[simp] theorem setBuf_pbm_hostLog (m : Memory) (s : State) : (s.setBuf .pbm m).hostLog = s.hostLog := rfl
@[simp] theorem setBuf_fbm_pcu (m : Memory) (s : State) : (s.setBuf .fbm m).pcu = s.pcu := rfl
@[simp] theorem setBuf_fbm_fsu (m : Memory) (s : State) : (s.setBuf .fbm m).fsu = s.fsu := rfl
@[simp] theorem setBuf_fbm_phasePcu (m : Memory) (s : State) : (s.setBuf .fbm m).phasePcu = s.phasePcu := rfl
@[simp] theorem setBuf_fbm_latPcu (m : Memory) (s : State) : (s.setBuf .fbm m).latPcu = s.latPcu := rfl
@[simp] theorem setBuf_fbm_phaseFsu (m : Memory) (s : State) : (s.setBuf .fbm m).phaseFsu = s.phaseFsu := rfl
@[simp] theorem setBuf_fbm_latFsu (m : Memory) (s : State) : (s.setBuf .fbm m).latFsu = s.latFsu := rfl
@[simp] theorem setBuf_fbm_txOpen (m : Memory) (s : State) : (s.setBuf .fbm m).txOpen = s.txOpen := rfl
@[simp] theorem setBuf_fbm_txTrace (m : Memory) (s : State) : (s.setBuf .fbm m).txTrace = s.txTrace := rfl
@[simp] theorem setBuf_fbm_mfault (m : Memory) (s : State) : (s.setBuf .fbm m).mfault = s.mfault := rfl
@[simp] theorem setBuf_fbm_pbm (m : Memory) (s : State) : (s.setBuf .fbm m).pbm = s.pbm := rfl
@[simp] theorem setBuf_fbm_fbm (m : Memory) (s : State) : (s.setBuf .fbm m).fbm = m := rfl
@[simp] theorem setBuf_fbm_pbmSize (m : Memory) (s : State) : (s.setBuf .fbm m).pbmSize = s.pbmSize := rfl
@[simp] theorem setBuf_fbm_fbmSize (m : Memory) (s : State) : (s.setBuf .fbm m).fbmSize = s.fbmSize := rfl
@[simp] theorem setBuf_fbm_agenda (m : Memory) (s : State) : (s.setBuf .fbm m).agenda = s.agenda := rfl
@[simp] theorem setBuf_fbm_writeAnswers (m : Memory) (s : State) : (s.setBuf .fbm m).writeAnswers = s.writeAnswers := rfl
@[simp] theorem setBuf_fbm_flushAnswers (m : Memory) (s : State) : (s.setBuf .fbm m).flushAnswers = s.flushAnswers := rfl
@[simp] theorem setBuf_fbm_draws (m : Memory) (s : State) : (s.setBuf .fbm m).draws = s.draws := rfl
@[simp] theorem setBuf_fbm_hostLog (m : Memory) (s : State) : (s.setBuf .fbm m).hostLog = s.hostLog := rfl

/-! ### The fault record (R51) -/

@[simp] theorem recordFault_pcu (r : Fault) (s : State) : (s.recordFault r).pcu = s.pcu := rfl
@[simp] theorem recordFault_fsu (r : Fault) (s : State) : (s.recordFault r).fsu = s.fsu := rfl
@[simp] theorem recordFault_phasePcu (r : Fault) (s : State) : (s.recordFault r).phasePcu = s.phasePcu := rfl
@[simp] theorem recordFault_latPcu (r : Fault) (s : State) : (s.recordFault r).latPcu = s.latPcu := rfl
@[simp] theorem recordFault_phaseFsu (r : Fault) (s : State) : (s.recordFault r).phaseFsu = s.phaseFsu := rfl
@[simp] theorem recordFault_latFsu (r : Fault) (s : State) : (s.recordFault r).latFsu = s.latFsu := rfl
@[simp] theorem recordFault_txOpen (r : Fault) (s : State) : (s.recordFault r).txOpen = s.txOpen := rfl
@[simp] theorem recordFault_txTrace (r : Fault) (s : State) : (s.recordFault r).txTrace = s.txTrace := rfl
@[simp] theorem recordFault_mfault (r : Fault) (s : State) : (s.recordFault r).mfault = s.mfault.or (some r) := rfl
@[simp] theorem recordFault_pbm (r : Fault) (s : State) : (s.recordFault r).pbm = s.pbm := rfl
@[simp] theorem recordFault_fbm (r : Fault) (s : State) : (s.recordFault r).fbm = s.fbm := rfl
@[simp] theorem recordFault_pbmSize (r : Fault) (s : State) : (s.recordFault r).pbmSize = s.pbmSize := rfl
@[simp] theorem recordFault_fbmSize (r : Fault) (s : State) : (s.recordFault r).fbmSize = s.fbmSize := rfl
@[simp] theorem recordFault_agenda (r : Fault) (s : State) : (s.recordFault r).agenda = s.agenda := rfl
@[simp] theorem recordFault_writeAnswers (r : Fault) (s : State) : (s.recordFault r).writeAnswers = s.writeAnswers := rfl
@[simp] theorem recordFault_flushAnswers (r : Fault) (s : State) : (s.recordFault r).flushAnswers = s.flushAnswers := rfl
@[simp] theorem recordFault_draws (r : Fault) (s : State) : (s.recordFault r).draws = s.draws := rfl
@[simp] theorem recordFault_hostLog (r : Fault) (s : State) : (s.recordFault r).hostLog = s.hostLog := rfl

/-! ### The transport's port (R148, R158, R160) -/

@[simp] theorem emit_pcu (e : TxEvent) (s : State) : (s.emit e).pcu = s.pcu := rfl
@[simp] theorem emit_fsu (e : TxEvent) (s : State) : (s.emit e).fsu = s.fsu := rfl
@[simp] theorem emit_phasePcu (e : TxEvent) (s : State) : (s.emit e).phasePcu = s.phasePcu := rfl
@[simp] theorem emit_latPcu (e : TxEvent) (s : State) : (s.emit e).latPcu = s.latPcu := rfl
@[simp] theorem emit_phaseFsu (e : TxEvent) (s : State) : (s.emit e).phaseFsu = s.phaseFsu := rfl
@[simp] theorem emit_latFsu (e : TxEvent) (s : State) : (s.emit e).latFsu = s.latFsu := rfl
@[simp] theorem emit_txOpen (e : TxEvent) (s : State) : (s.emit e).txOpen = s.txOpen := rfl
@[simp] theorem emit_txTrace (e : TxEvent) (s : State) : (s.emit e).txTrace = s.txTrace ++ [e] := rfl
@[simp] theorem emit_mfault (e : TxEvent) (s : State) : (s.emit e).mfault = s.mfault := rfl
@[simp] theorem emit_pbm (e : TxEvent) (s : State) : (s.emit e).pbm = s.pbm := rfl
@[simp] theorem emit_fbm (e : TxEvent) (s : State) : (s.emit e).fbm = s.fbm := rfl
@[simp] theorem emit_pbmSize (e : TxEvent) (s : State) : (s.emit e).pbmSize = s.pbmSize := rfl
@[simp] theorem emit_fbmSize (e : TxEvent) (s : State) : (s.emit e).fbmSize = s.fbmSize := rfl
@[simp] theorem emit_agenda (e : TxEvent) (s : State) : (s.emit e).agenda = s.agenda := rfl
@[simp] theorem emit_writeAnswers (e : TxEvent) (s : State) : (s.emit e).writeAnswers = s.writeAnswers := rfl
@[simp] theorem emit_flushAnswers (e : TxEvent) (s : State) : (s.emit e).flushAnswers = s.flushAnswers := rfl
@[simp] theorem emit_draws (e : TxEvent) (s : State) : (s.emit e).draws = s.draws := rfl
@[simp] theorem emit_hostLog (e : TxEvent) (s : State) : (s.emit e).hostLog = s.hostLog := rfl
@[simp] theorem takeWriteAnswer_pcu (s : State) : s.takeWriteAnswer.pcu = s.pcu := by
  unfold State.takeWriteAnswer; split <;> rfl
@[simp] theorem takeWriteAnswer_fsu (s : State) : s.takeWriteAnswer.fsu = s.fsu := by
  unfold State.takeWriteAnswer; split <;> rfl
@[simp] theorem takeWriteAnswer_phasePcu (s : State) : s.takeWriteAnswer.phasePcu = s.phasePcu := by
  unfold State.takeWriteAnswer; split <;> rfl
@[simp] theorem takeWriteAnswer_latPcu (s : State) : s.takeWriteAnswer.latPcu = s.latPcu := by
  unfold State.takeWriteAnswer; split <;> rfl
@[simp] theorem takeWriteAnswer_phaseFsu (s : State) : s.takeWriteAnswer.phaseFsu = s.phaseFsu := by
  unfold State.takeWriteAnswer; split <;> rfl
@[simp] theorem takeWriteAnswer_latFsu (s : State) : s.takeWriteAnswer.latFsu = s.latFsu := by
  unfold State.takeWriteAnswer; split <;> rfl
@[simp] theorem takeWriteAnswer_txOpen (s : State) : s.takeWriteAnswer.txOpen = s.txOpen := by
  unfold State.takeWriteAnswer; split <;> rfl
@[simp] theorem takeWriteAnswer_txTrace (s : State) : s.takeWriteAnswer.txTrace = s.txTrace := by
  unfold State.takeWriteAnswer; split <;> rfl
@[simp] theorem takeWriteAnswer_mfault (s : State) : s.takeWriteAnswer.mfault = s.mfault := by
  unfold State.takeWriteAnswer; split <;> rfl
@[simp] theorem takeWriteAnswer_pbm (s : State) : s.takeWriteAnswer.pbm = s.pbm := by
  unfold State.takeWriteAnswer; split <;> rfl
@[simp] theorem takeWriteAnswer_fbm (s : State) : s.takeWriteAnswer.fbm = s.fbm := by
  unfold State.takeWriteAnswer; split <;> rfl
@[simp] theorem takeWriteAnswer_pbmSize (s : State) : s.takeWriteAnswer.pbmSize = s.pbmSize := by
  unfold State.takeWriteAnswer; split <;> rfl
@[simp] theorem takeWriteAnswer_fbmSize (s : State) : s.takeWriteAnswer.fbmSize = s.fbmSize := by
  unfold State.takeWriteAnswer; split <;> rfl
@[simp] theorem takeWriteAnswer_agenda (s : State) : s.takeWriteAnswer.agenda = s.agenda := by
  unfold State.takeWriteAnswer; split <;> rfl
@[simp] theorem takeWriteAnswer_flushAnswers (s : State) : s.takeWriteAnswer.flushAnswers = s.flushAnswers := by
  unfold State.takeWriteAnswer; split <;> rfl
@[simp] theorem takeWriteAnswer_hostLog (s : State) : s.takeWriteAnswer.hostLog = s.hostLog := by
  unfold State.takeWriteAnswer; split <;> rfl
@[simp] theorem takeFlushAnswer_pcu (s : State) : s.takeFlushAnswer.pcu = s.pcu := by
  unfold State.takeFlushAnswer; split <;> rfl
@[simp] theorem takeFlushAnswer_fsu (s : State) : s.takeFlushAnswer.fsu = s.fsu := by
  unfold State.takeFlushAnswer; split <;> rfl
@[simp] theorem takeFlushAnswer_phasePcu (s : State) : s.takeFlushAnswer.phasePcu = s.phasePcu := by
  unfold State.takeFlushAnswer; split <;> rfl
@[simp] theorem takeFlushAnswer_latPcu (s : State) : s.takeFlushAnswer.latPcu = s.latPcu := by
  unfold State.takeFlushAnswer; split <;> rfl
@[simp] theorem takeFlushAnswer_phaseFsu (s : State) : s.takeFlushAnswer.phaseFsu = s.phaseFsu := by
  unfold State.takeFlushAnswer; split <;> rfl
@[simp] theorem takeFlushAnswer_latFsu (s : State) : s.takeFlushAnswer.latFsu = s.latFsu := by
  unfold State.takeFlushAnswer; split <;> rfl
@[simp] theorem takeFlushAnswer_txOpen (s : State) : s.takeFlushAnswer.txOpen = s.txOpen := by
  unfold State.takeFlushAnswer; split <;> rfl
@[simp] theorem takeFlushAnswer_txTrace (s : State) : s.takeFlushAnswer.txTrace = s.txTrace := by
  unfold State.takeFlushAnswer; split <;> rfl
@[simp] theorem takeFlushAnswer_mfault (s : State) : s.takeFlushAnswer.mfault = s.mfault := by
  unfold State.takeFlushAnswer; split <;> rfl
@[simp] theorem takeFlushAnswer_pbm (s : State) : s.takeFlushAnswer.pbm = s.pbm := by
  unfold State.takeFlushAnswer; split <;> rfl
@[simp] theorem takeFlushAnswer_fbm (s : State) : s.takeFlushAnswer.fbm = s.fbm := by
  unfold State.takeFlushAnswer; split <;> rfl
@[simp] theorem takeFlushAnswer_pbmSize (s : State) : s.takeFlushAnswer.pbmSize = s.pbmSize := by
  unfold State.takeFlushAnswer; split <;> rfl
@[simp] theorem takeFlushAnswer_fbmSize (s : State) : s.takeFlushAnswer.fbmSize = s.fbmSize := by
  unfold State.takeFlushAnswer; split <;> rfl
@[simp] theorem takeFlushAnswer_agenda (s : State) : s.takeFlushAnswer.agenda = s.agenda := by
  unfold State.takeFlushAnswer; split <;> rfl
@[simp] theorem takeFlushAnswer_writeAnswers (s : State) : s.takeFlushAnswer.writeAnswers = s.writeAnswers := by
  unfold State.takeFlushAnswer; split <;> rfl
@[simp] theorem takeFlushAnswer_hostLog (s : State) : s.takeFlushAnswer.hostLog = s.hostLog := by
  unfold State.takeFlushAnswer; split <;> rfl

/-! ### The host's record (log 10) -/

@[simp] theorem returned_pcu (e : HostRead) (s : State) : (s.returned e).pcu = s.pcu := rfl
@[simp] theorem returned_fsu (e : HostRead) (s : State) : (s.returned e).fsu = s.fsu := rfl
@[simp] theorem returned_phasePcu (e : HostRead) (s : State) : (s.returned e).phasePcu = s.phasePcu := rfl
@[simp] theorem returned_latPcu (e : HostRead) (s : State) : (s.returned e).latPcu = s.latPcu := rfl
@[simp] theorem returned_phaseFsu (e : HostRead) (s : State) : (s.returned e).phaseFsu = s.phaseFsu := rfl
@[simp] theorem returned_latFsu (e : HostRead) (s : State) : (s.returned e).latFsu = s.latFsu := rfl
@[simp] theorem returned_txOpen (e : HostRead) (s : State) : (s.returned e).txOpen = s.txOpen := rfl
@[simp] theorem returned_txTrace (e : HostRead) (s : State) : (s.returned e).txTrace = s.txTrace := rfl
@[simp] theorem returned_mfault (e : HostRead) (s : State) : (s.returned e).mfault = s.mfault := rfl
@[simp] theorem returned_pbm (e : HostRead) (s : State) : (s.returned e).pbm = s.pbm := rfl
@[simp] theorem returned_fbm (e : HostRead) (s : State) : (s.returned e).fbm = s.fbm := rfl
@[simp] theorem returned_pbmSize (e : HostRead) (s : State) : (s.returned e).pbmSize = s.pbmSize := rfl
@[simp] theorem returned_fbmSize (e : HostRead) (s : State) : (s.returned e).fbmSize = s.fbmSize := rfl
@[simp] theorem returned_agenda (e : HostRead) (s : State) : (s.returned e).agenda = s.agenda := rfl
@[simp] theorem returned_writeAnswers (e : HostRead) (s : State) : (s.returned e).writeAnswers = s.writeAnswers := rfl
@[simp] theorem returned_flushAnswers (e : HostRead) (s : State) : (s.returned e).flushAnswers = s.flushAnswers := rfl
@[simp] theorem returned_draws (e : HostRead) (s : State) : (s.returned e).draws = s.draws := rfl
@[simp] theorem returned_hostLog (e : HostRead) (s : State) : (s.returned e).hostLog = s.hostLog ++ [e] := rfl

/-! ### Reset (R230) -/

@[simp] theorem closeSession_pcu (s : State) : s.closeSession.pcu = s.pcu := by
  unfold State.closeSession; split <;> rfl
@[simp] theorem closeSession_fsu (s : State) : s.closeSession.fsu = s.fsu := by
  unfold State.closeSession; split <;> rfl
@[simp] theorem closeSession_phasePcu (s : State) : s.closeSession.phasePcu = s.phasePcu := by
  unfold State.closeSession; split <;> rfl
@[simp] theorem closeSession_latPcu (s : State) : s.closeSession.latPcu = s.latPcu := by
  unfold State.closeSession; split <;> rfl
@[simp] theorem closeSession_phaseFsu (s : State) : s.closeSession.phaseFsu = s.phaseFsu := by
  unfold State.closeSession; split <;> rfl
@[simp] theorem closeSession_latFsu (s : State) : s.closeSession.latFsu = s.latFsu := by
  unfold State.closeSession; split <;> rfl
@[simp] theorem closeSession_mfault (s : State) : s.closeSession.mfault = s.mfault := by
  unfold State.closeSession; split <;> rfl
@[simp] theorem closeSession_pbm (s : State) : s.closeSession.pbm = s.pbm := by
  unfold State.closeSession; split <;> rfl
@[simp] theorem closeSession_fbm (s : State) : s.closeSession.fbm = s.fbm := by
  unfold State.closeSession; split <;> rfl
@[simp] theorem closeSession_pbmSize (s : State) : s.closeSession.pbmSize = s.pbmSize := by
  unfold State.closeSession; split <;> rfl
@[simp] theorem closeSession_fbmSize (s : State) : s.closeSession.fbmSize = s.fbmSize := by
  unfold State.closeSession; split <;> rfl
@[simp] theorem closeSession_agenda (s : State) : s.closeSession.agenda = s.agenda := by
  unfold State.closeSession; split <;> rfl
@[simp] theorem closeSession_writeAnswers (s : State) : s.closeSession.writeAnswers = s.writeAnswers := by
  unfold State.closeSession; split <;> rfl
@[simp] theorem closeSession_flushAnswers (s : State) : s.closeSession.flushAnswers = s.flushAnswers := by
  unfold State.closeSession; split <;> rfl
@[simp] theorem closeSession_draws (s : State) : s.closeSession.draws = s.draws := by
  unfold State.closeSession; split <;> rfl
@[simp] theorem closeSession_hostLog (s : State) : s.closeSession.hostLog = s.hostLog := by
  unfold State.closeSession; split <;> rfl
@[simp] theorem closeSession_txOpen (s : State) : s.closeSession.txOpen = false := by
  unfold State.closeSession; split
  · rfl
  · simpa using ‹¬s.txOpen = true›
@[simp] theorem closeSession_txTrace (s : State) : s.closeSession.txTrace = if s.txOpen then s.txTrace ++ [.txClose] else s.txTrace := by
  unfold State.closeSession; split <;> rfl
@[simp] theorem resetBlock_pcu (s : State) : (resetBlock s).pcu = .reset := rfl
@[simp] theorem resetBlock_fsu (s : State) : (resetBlock s).fsu = .reset := rfl
@[simp] theorem resetBlock_phasePcu (s : State) : (resetBlock s).phasePcu = .idle := rfl
@[simp] theorem resetBlock_latPcu (s : State) : (resetBlock s).latPcu = .unspecified s.draws := rfl
@[simp] theorem resetBlock_phaseFsu (s : State) : (resetBlock s).phaseFsu = .idle := rfl
@[simp] theorem resetBlock_latFsu (s : State) : (resetBlock s).latFsu = .unspecified (s.draws + 8) := rfl
@[simp] theorem resetBlock_txOpen (s : State) : (resetBlock s).txOpen = false := closeSession_txOpen s
@[simp] theorem resetBlock_txTrace (s : State) : (resetBlock s).txTrace = if s.txOpen then s.txTrace ++ [.txClose] else s.txTrace := closeSession_txTrace s
@[simp] theorem resetBlock_mfault (s : State) : (resetBlock s).mfault = s.mfault := closeSession_mfault s
@[simp] theorem resetBlock_pbm (s : State) : (resetBlock s).pbm = [] := rfl
@[simp] theorem resetBlock_fbm (s : State) : (resetBlock s).fbm = [] := rfl
@[simp] theorem resetBlock_pbmSize (s : State) : (resetBlock s).pbmSize = s.pbmSize := closeSession_pbmSize s
@[simp] theorem resetBlock_fbmSize (s : State) : (resetBlock s).fbmSize = s.fbmSize := closeSession_fbmSize s
@[simp] theorem resetBlock_agenda (s : State) : (resetBlock s).agenda = s.agenda := closeSession_agenda s
@[simp] theorem resetBlock_writeAnswers (s : State) : (resetBlock s).writeAnswers = s.writeAnswers := closeSession_writeAnswers s
@[simp] theorem resetBlock_flushAnswers (s : State) : (resetBlock s).flushAnswers = s.flushAnswers := closeSession_flushAnswers s
@[simp] theorem resetBlock_draws (s : State) : (resetBlock s).draws = s.draws + latchWords := rfl
@[simp] theorem resetBlock_hostLog (s : State) : (resetBlock s).hostLog = s.hostLog := closeSession_hostLog s

end Sys2Proof.Machine
end

