-- ==== Sys2Proof/Laws/Commands.lean ====
section
/-! SUPPORT. What each shared operation and each command's effect can do, said once: the provers cite these instead of
unfolding the meanings. -/

namespace Sys2Proof.Machine

/-! ### Outcomes -/

theorem settle_next {s t : State} : settle s = .next t ↔ s = t ∧ s.mfault = none := by
  unfold settle
  split <;> simp_all

theorem settle_fault {s : State} {r : Fault} : settle s = .fault r ↔ s.mfault = some r := by
  unfold settle
  split <;> simp_all

theorem settle_of_none {s : State} (h : s.mfault = none) : settle s = .next s := settle_next.2 ⟨rfl, h⟩

theorem settle_not_refused (s : State) (r : Refusal) : settle s ≠ .refused r := by
  unfold settle
  split <;> simp

@[simp] theorem recordFault_ne_none (s : State) (r : Fault) : (s.recordFault r).mfault ≠ none := by
  cases h : s.mfault <;> simp [h]

theorem settle_recordFault_next {s t : State} {r : Fault} : settle (s.recordFault r) ≠ .next t := by
  intro h
  exact recordFault_ne_none s r (settle_next.1 h).2

theorem settle_recordFault {s : State} (r : Fault) (h : s.mfault = none) : settle (s.recordFault r) = .fault r := by
  rw [settle_fault]; simp [h]

theorem exec_decPix (s : State) : exec .decPix s = settle (decPix s) := rfl

theorem exec_encPix (s : State) : exec .encPix s = settle (encPix s) := rfl

theorem exec_decBuf (hdr : Bool) (s : State) : exec (.decBuf hdr) s = settle (decBuf hdr s) := rfl

theorem exec_encBuf (s : State) : exec .encBuf s = settle (encBuf s) := rfl

theorem exec_build (s : State) : exec .build s = settle (buildFrame s) := rfl

theorem exec_send (s : State) : exec .send s = settle (sendStep s) := rfl

/-- No command is refused. -/
theorem exec_not_refused (i : Instr) (s : State) (r : Refusal) : exec i s ≠ .refused r := by
  cases i <;> exact settle_not_refused _ r

/-! ### Streams and frames -/

theorem decodeStream_length {n : Nat} {bs : List Byte} (h : bs.length = 2 * n) : (decodeStream bs).length = 3 * n := by
  induction n generalizing bs with
  | zero =>
    have : bs = [] := List.eq_nil_of_length_eq_zero (by omega)
    subst this; rfl
  | succ n ih =>
    match bs, h with
    | hi :: lo :: rest, h =>
      have := ih (bs := rest) (by simp only [List.length_cons] at h; omega)
      simp [decodeStream, Rgb.bytes, this]; omega

theorem encodeStream_length {n : Nat} {bs : List Byte} (h : bs.length = 3 * n) : (encodeStream bs).length = 2 * n := by
  induction n generalizing bs with
  | zero =>
    have : bs = [] := List.eq_nil_of_length_eq_zero (by omega)
    subst this; rfl
  | succ n ih =>
    match bs, h with
    | r :: g :: b :: rest, h =>
      have := ih (bs := rest) (by simp only [List.length_cons] at h; omega)
      simp [encodeStream, be16, this]; omega

theorem le32_length (v : Word) : (le32 v).length = 4 := rfl

/-- The frame's length (R142). -/
theorem frame_length (path : List Byte) (n : Word) (payload : List Byte) :
    (frame path n payload).length = path.length + 5 + payload.length := by
  simp only [frame, List.length_append, List.length_singleton, le32_length]

/-! ### The range tests -/

theorem inRange_iff {size a n : Nat} : inRange size a n = true ↔ n = 0 ∨ a + n ≤ size := by
  simp [inRange]

theorem overlaps_iff {a1 n1 a2 n2 : Nat} :
    overlaps a1 n1 a2 n2 = true ↔ 0 < n1 ∧ 0 < n2 ∧ a1 < a2 + n2 ∧ a2 < a1 + n1 := by
  simp [overlaps, and_assoc]

theorem inRanges_singleton {a n k : Nat} : inRanges [(a, n)] k = true ↔ a ≤ k ∧ k < a + n := by
  simp [inRanges]

/-! ### The PCU's commands -/

/-- What a PCU command may change: the phase, the flags and the two ERR registers, the two pixel registers, and bytes of
PBM inside the memory (40_pixel_codec.md R112 to R116). -/
structure PcuChange (s t : State) : Prop where
  eq : ∃ code actual expected pix rgb m,
    t = { s with
      phasePcu := .idle
      pbm := m
      pcu := { s.pcu with
        status := s.pcu.status.completed code
        errActual := actual
        errExpected := expected
        pix565 := pix
        rgb888 := rgb } } ∧
    (code ≠ .payloadTooSmall → actual = 0 ∧ expected = 0) ∧
    code ≠ .invalidPath ∧ code ≠ .transportWriteFailed ∧
    (m = s.pbm ∨ ∃ dst bs, m = memWrite s.pbm dst bs ∧ (bs = [] ∨ dst + bs.length ≤ s.pbmSize))

/-- An error of the PCU's own is such a change, with the memory and the pixel registers as they were (R206, R207). -/
theorem pcuChange_raise {e : CmdError} (s : State) (h1 : e ≠ .invalidPath) (h2 : e ≠ .transportWriteFailed) :
    PcuChange s (raise .pcu e s) := by
  refine ⟨e.code, e.actual, e.expected, s.pcu.pix565, s.pcu.rgb888, s.pbm, rfl, ?_, ?_, ?_, .inl rfl⟩ <;>
    cases e <;> simp_all [CmdError.code, CmdError.actual, CmdError.expected]

/-- The outcomes of `convert` (R114, R115). -/
theorem convert_cases (f : List Byte → List Byte) (src n dst : Nat) (s : State) :
    (∃ a, memRead s.pbm src n = .error a ∧ convert f src n dst s = s.recordFault (.unwrittenRead .pbm a)) ∨
    (∃ bs, memRead s.pbm src n = .ok bs ∧
      convert f src n dst s = completeOk .pcu (s.setBuf .pbm (memWrite s.pbm dst (f bs)))) := by
  unfold convert
  split
  · next a h => exact .inl ⟨a, h, rfl⟩
  · next bs h => exact .inr ⟨bs, h, rfl⟩

theorem pcuChange_convert {f : List Byte → List Byte} {src n dst : Nat} {s : State}
    (hf : ∀ bs, memRead s.pbm src n = .ok bs → f bs = [] ∨ dst + (f bs).length ≤ s.pbmSize) :
    PcuChange s (convert f src n dst s) ∨ ∃ a, convert f src n dst s = s.recordFault (.unwrittenRead .pbm a) := by
  rcases convert_cases f src n dst s with ⟨a, _, h⟩ | ⟨bs, hr, h⟩
  · exact .inr ⟨a, h⟩
  · left
    rw [h]
    exact ⟨.none, 0, 0, s.pcu.pix565, s.pcu.rgb888, _, rfl, fun _ => ⟨rfl, rfl⟩, by simp, by simp,
      .inr ⟨dst, f bs, rfl, hf bs hr⟩⟩

/-- The dimension check in numbers (R106). -/
theorem badDimensions_iff {c : PcuLatch} : c.badDimensions = true ↔ c.pixels = 0 ∨ Config.maxBytes < 3 * c.pixels := by
  have hw : (c.width == 0) = decide (c.width.toNat = 0) := by
    rw [Bool.eq_iff_iff]; simp [BitVec.toNat_eq]
  have hh : (c.height == 0) = decide (c.height.toNat = 0) := by
    rw [Bool.eq_iff_iff]; simp [BitVec.toNat_eq]
  unfold PcuLatch.badDimensions
  rw [hw, hh]
  simp only [Bool.or_eq_true, decide_eq_true_iff]
  simp only [PcuLatch.pixels, Nat.mul_eq_zero]

/-- The checks of a buffer command pass exactly when every condition of R114 (R115) holds. -/
theorem bufferCheck_none {size src avail need out : Nat} {c : PcuLatch} (hneed : 0 < need) (hout : 0 < out) :
    bufferCheck size c src avail need out = none ↔
      c.pixels ≠ 0 ∧ 3 * c.pixels ≤ Config.maxBytes ∧
      (c.srcLen.toNat = 0 ∨ c.srcAddr.toNat + c.srcLen.toNat ≤ size) ∧ need ≤ avail ∧
      c.dstAddr.toNat + out ≤ size ∧ (src + need ≤ c.dstAddr.toNat ∨ c.dstAddr.toNat + out ≤ src) := by
  unfold bufferCheck
  simp only [badDimensions_iff, Bool.not_eq_true', ← Bool.not_eq_true, inRange_iff, overlaps_iff]
  split
  · simp; omega
  · split
    · simp; omega
    · split
      · simp; omega
      · split
        · simp; omega
        · split
          · simp; omega
          · simp; omega

/-- The errors the checks of a buffer command give (R203), with PAYLOAD_TOO_SMALL's info (R111). -/
theorem bufferCheck_some {size src avail need out : Nat} {c : PcuLatch} {e : CmdError}
    (h : bufferCheck size c src avail need out = some e) :
    e = .invalidArguments ∨ e = .rangeError ∨ (e = .payloadTooSmall avail need ∧ avail < need) ∨ e = .overlap := by
  unfold bufferCheck at h
  split at h
  · cases h; simp
  · split at h
    · cases h; simp
    · split at h
      · next hlt => cases h; simp [hlt]
      · split at h
        · cases h; simp
        · split at h
          · cases h; simp
          · cases h

/-- A command whose checks pass writes inside the memory. -/
theorem bufferCheck_none_range {size src avail need out : Nat} {c : PcuLatch}
    (h : bufferCheck size c src avail need out = none) : out = 0 ∨ c.dstAddr.toNat + out ≤ size := by
  unfold bufferCheck at h
  split at h
  · cases h
  · split at h
    · cases h
    · split at h
      · cases h
      · split at h
        · cases h
        · next hr => exact inRange_iff.1 (by simpa using hr)

/-- DEC_BUF's outcomes (R114): the first failing check's error, the fault of an unwritten byte, or the decoded bytes
written. -/
theorem decBuf_cases (hdr : Bool) (s : State) :
    (∃ e, bufferCheck s.pbmSize s.latPcu (s.latPcu.streamAddr hdr) (s.latPcu.available hdr) (2 * s.latPcu.pixels)
        (3 * s.latPcu.pixels) = some e ∧ decBuf hdr s = raise .pcu e s) ∨
    (bufferCheck s.pbmSize s.latPcu (s.latPcu.streamAddr hdr) (s.latPcu.available hdr) (2 * s.latPcu.pixels)
        (3 * s.latPcu.pixels) = none ∧
      decBuf hdr s =
        convert decodeStream (s.latPcu.streamAddr hdr) (2 * s.latPcu.pixels) s.latPcu.dstAddr.toNat s) := by
  unfold decBuf
  dsimp only
  split
  · next e h => exact .inl ⟨e, h, rfl⟩
  · next h => exact .inr ⟨h, rfl⟩

/-- ENC_BUF's outcomes (R115): the first failing check's error, the fault of an unwritten byte, or the encoded bytes
written. -/
theorem encBuf_cases (s : State) :
    (∃ e, bufferCheck s.pbmSize s.latPcu s.latPcu.srcAddr.toNat s.latPcu.srcLen.toNat (3 * s.latPcu.pixels)
        (2 * s.latPcu.pixels) = some e ∧ encBuf s = raise .pcu e s) ∨
    (bufferCheck s.pbmSize s.latPcu s.latPcu.srcAddr.toNat s.latPcu.srcLen.toNat (3 * s.latPcu.pixels)
        (2 * s.latPcu.pixels) = none ∧
      encBuf s = convert encodeStream s.latPcu.srcAddr.toNat (3 * s.latPcu.pixels) s.latPcu.dstAddr.toNat s) := by
  unfold encBuf
  dsimp only
  split
  · next e h => exact .inl ⟨e, h, rfl⟩
  · next h => exact .inr ⟨h, rfl⟩

theorem pcuChange_check {size src avail need out : Nat} {c : PcuLatch} {e : CmdError} (s : State)
    (h : bufferCheck size c src avail need out = some e) : PcuChange s (raise .pcu e s) := by
  rcases bufferCheck_some h with rfl | rfl | ⟨rfl, -⟩ | rfl <;> exact pcuChange_raise s (by simp) (by simp)

/-- DEC_BUF makes a PCU change, or meets an unwritten byte. -/
theorem decBuf_change (hdr : Bool) (s : State) :
    PcuChange s (decBuf hdr s) ∨ ∃ a, decBuf hdr s = s.recordFault (.unwrittenRead .pbm a) := by
  rcases decBuf_cases hdr s with ⟨e, he, h⟩ | ⟨hn, h⟩
  · exact .inl (h ▸ pcuChange_check s he)
  · rw [h]
    refine pcuChange_convert fun bs hbs => ?_
    have hl := decodeStream_length (memRead_length hbs)
    rcases bufferCheck_none_range hn with h0 | h0
    · exact .inl (List.eq_nil_of_length_eq_zero (by omega))
    · exact .inr (by omega)

/-- ENC_BUF makes a PCU change, or meets an unwritten byte. -/
theorem encBuf_change (s : State) :
    PcuChange s (encBuf s) ∨ ∃ a, encBuf s = s.recordFault (.unwrittenRead .pbm a) := by
  rcases encBuf_cases s with ⟨e, he, h⟩ | ⟨hn, h⟩
  · exact .inl (h ▸ pcuChange_check s he)
  · rw [h]
    refine pcuChange_convert fun bs hbs => ?_
    have hl := encodeStream_length (memRead_length hbs)
    rcases bufferCheck_none_range hn with h0 | h0
    · exact .inl (List.eq_nil_of_length_eq_zero (by omega))
    · exact .inr (by omega)

/-- Every PCU command that answers a next state makes a PCU change, from a state with no fault recorded (R116). -/
theorem exec_pcu_next {i : Instr} {s t : State} (hu : i.unit = .pcu) (h : exec i s = .next t) :
    PcuChange s t ∧ s.mfault = none := by
  have key : ∀ e : State, (PcuChange s e ∨ ∃ a, e = s.recordFault (.unwrittenRead .pbm a)) →
      settle e = .next t → PcuChange s t ∧ s.mfault = none := by
    intro e he hs
    rcases he with he | ⟨a, rfl⟩
    · obtain ⟨rfl, hm⟩ := settle_next.1 hs
      refine ⟨he, ?_⟩
      obtain ⟨_, _, _, _, _, _, rfl, -⟩ := he.eq
      exact hm
    · exact absurd hs settle_recordFault_next
  cases i with
  | decPix =>
    exact key _ (.inl ⟨.none, 0, 0, s.pcu.pix565, _, s.pbm, rfl, fun _ => ⟨rfl, rfl⟩, by simp, by simp, .inl rfl⟩) h
  | encPix =>
    exact key _ (.inl ⟨.none, 0, 0, _, s.pcu.rgb888, s.pbm, rfl, fun _ => ⟨rfl, rfl⟩, by simp, by simp, .inl rfl⟩) h
  | decBuf hdr => exact key _ (decBuf_change hdr s) h
  | encBuf => exact key _ (encBuf_change s) h
  | build => cases hu
  | send => cases hu

/-! ### The FSU's commands -/

/-- What BUILD may change: the phase, the flags, FSU_FRM_LEN, and bytes of FBM inside the memory (R146). -/
structure BuildChange (s t : State) : Prop where
  eq : ∃ code len m,
    t = { s with
      phaseFsu := .idle
      fbm := m
      fsu := { s.fsu with status := s.fsu.status.completed code, frmLen := len } } ∧
    code ≠ .payloadTooSmall ∧ code ≠ .invalidArguments ∧
    (m = s.fbm ∨ ∃ dst bs, m = memWrite s.fbm dst bs ∧ (bs = [] ∨ dst + bs.length ≤ s.fbmSize))

theorem buildChange_raise {e : CmdError} (s : State) (h1 : e.code ≠ .payloadTooSmall)
    (h2 : e.code ≠ .invalidArguments) : BuildChange s (raise .fsu e s) :=
  ⟨e.code, s.fsu.frmLen, s.fbm, rfl, h1, h2, .inl rfl⟩

/-- BUILD's outcomes (R146): a BUILD change, or the fault of an unwritten byte. -/
theorem buildFrame_cases (s : State) :
    BuildChange s (buildFrame s) ∨ ∃ a, buildFrame s = s.recordFault (.unwrittenRead .fbm a) := by
  unfold buildFrame
  dsimp only
  split
  · exact .inl (buildChange_raise s (by simp [CmdError.code]) (by simp [CmdError.code]))
  · split
    · exact .inl (buildChange_raise s (by simp [CmdError.code]) (by simp [CmdError.code]))
    · split
      · next a _ => exact .inr ⟨a, rfl⟩
      · next path hp =>
        split
        · exact .inl (buildChange_raise s (by simp [CmdError.code]) (by simp [CmdError.code]))
        · split
          · exact .inl (buildChange_raise s (by simp [CmdError.code]) (by simp [CmdError.code]))
          · next hr =>
            split
            · exact .inl (buildChange_raise s (by simp [CmdError.code]) (by simp [CmdError.code]))
            · split
              · next a _ => exact .inr ⟨a, rfl⟩
              · next payload hq =>
                left
                refine ⟨.none, _, _, rfl, by simp, by simp, .inr ⟨_, _, rfl, ?_⟩⟩
                have hr' := inRange_iff.1 (Bool.of_not_eq_false (by simpa using hr))
                have hl := frame_length path s.latFsu.payLen payload
                rw [memRead_length hp, memRead_length hq] at hl
                unfold FsuLatch.builtLength at hr'
                right
                omega

/-- A BUILD that answers a next state makes a BUILD change, from a state with no fault recorded. -/
theorem exec_build_next {s t : State} (h : exec .build s = .next t) : BuildChange s t ∧ s.mfault = none := by
  rcases buildFrame_cases s with hc | ⟨a, ha⟩
  · obtain ⟨rfl, hm⟩ := settle_next.1 h
    refine ⟨hc, ?_⟩
    obtain ⟨_, _, _, heq, -⟩ := hc.eq
    rw [heq] at hm
    exact hm
  · rw [exec_build, ha] at h
    exact absurd h settle_recordFault_next

/-- SEND's start step that answers a next state (R150): the range error, or the session opened. -/
theorem sendStart_next {s t : State} (h : settle (sendStart s) = .next t) :
    s.mfault = none ∧
    ((inRange s.fbmSize s.latFsu.frmAddr.toNat s.latFsu.frmLen.toNat = false ∧ t = raise .fsu .rangeError s) ∨
     (inRange s.fbmSize s.latFsu.frmAddr.toNat s.latFsu.frmLen.toNat = true ∧
      t = { s with txTrace := s.txTrace ++ [.txOpen], txOpen := true, phaseFsu := .writing })) := by
  obtain ⟨rfl, hm⟩ := settle_next.1 h
  unfold sendStart at hm ⊢
  dsimp only at hm ⊢
  split at hm
  · next hr =>
    rw [if_pos hr]
    exact ⟨hm, .inl ⟨by simpa using hr, rfl⟩⟩
  · next hr =>
    rw [if_neg hr]
    exact ⟨hm, .inr ⟨by simpa using hr, rfl⟩⟩

/-- SEND's write step that answers a next state (R151 to R153): the transport took `k >= 1` of the offered bytes, or
the attempt failed and the session was closed. -/
theorem sendWriteWith_next {a : WriteAnswer} {s t : State} (h : settle (sendWriteWith a s) = .next t) :
    s.mfault = none ∧ ∃ offered,
      memRead s.fbm (s.latFsu.frmAddr.toNat + s.fsu.txSent.toNat)
        (s.latFsu.frmLen.toNat - s.fsu.txSent.toNat) = .ok offered ∧
      ((∃ k, a = .count (k + 1) ∧ k + 1 ≤ s.latFsu.frmLen.toNat - s.fsu.txSent.toNat ∧
          t = { s with
            txTrace := s.txTrace ++ [.txWrite offered a]
            fsu := { s.fsu with
              txCalls := s.fsu.txCalls + 1
              txSent := BitVec.ofNat 32 (s.fsu.txSent.toNat + (k + 1)) } }) ∨
       ((a = .fail ∨ a = .count 0) ∧
          t = { s with
            txTrace := s.txTrace ++ [.txWrite offered a] ++ [.txClose]
            txOpen := false
            phaseFsu := .idle
            fsu := { s.fsu with
              status := s.fsu.status.completed .transportWriteFailed
              txCalls := s.fsu.txCalls + 1 } })) := by
  obtain ⟨rfl, hm⟩ := settle_next.1 h
  unfold sendWriteWith at hm ⊢
  dsimp only at hm ⊢
  split at hm
  · exact absurd hm (recordFault_ne_none _ _)
  · next offered ho =>
    rw [ho]
    have hl := memRead_length ho
    match a, hm with
    | .fail, hm => exact ⟨hm, offered, rfl, .inr ⟨.inl rfl, rfl⟩⟩
    | .count 0, hm => exact ⟨hm, offered, rfl, .inr ⟨.inr rfl, rfl⟩⟩
    | .count (k + 1), hm =>
      simp only [sendAccept] at hm ⊢
      split at hm
      · next hk =>
        rw [if_pos hk]
        exact ⟨hm, offered, rfl, .inl ⟨k, rfl, by omega, rfl⟩⟩
      · exact absurd hm (recordFault_ne_none _ _)

/-- The error code a flush answer ends SEND with (R154). -/
def flushCode : FlushAnswer → ECode
  | .ok => .none
  | .fail => .transportWriteFailed

/-- SEND's flush step (R154): it never faults. -/
theorem sendFlushWith_next {a : FlushAnswer} {s t : State} (h : settle (sendFlushWith a s) = .next t) :
    s.mfault = none ∧
      t = { s with
        txTrace := s.txTrace ++ [.txFlush a] ++ [.txClose]
        txOpen := false
        phaseFsu := .idle
        fsu := { s.fsu with
          status := s.fsu.status.completed (flushCode a) } } := by
  obtain ⟨rfl, hm⟩ := settle_next.1 h
  cases a <;> exact ⟨hm, rfl⟩

/-- What any step of SEND leaves alone: the PCU, both memories, the latches and the parameters. -/
structure SendFrame (s t : State) : Prop where
  pcu : t.pcu = s.pcu
  phasePcu : t.phasePcu = s.phasePcu
  latPcu : t.latPcu = s.latPcu
  latFsu : t.latFsu = s.latFsu
  pbm : t.pbm = s.pbm
  fbm : t.fbm = s.fbm
  pbmSize : t.pbmSize = s.pbmSize
  fbmSize : t.fbmSize = s.fbmSize
  agenda : t.agenda = s.agenda
  hostLog : t.hostLog = s.hostLog
  mfault : t.mfault = s.mfault
  frmLen : t.fsu.frmLen = s.fsu.frmLen

/-- A step of SEND that answers a next state is one of the start, write and flush steps (R155, R167), and leaves the
rest alone. -/
theorem exec_send_next {s t : State} (h : exec .send s = .next t) : SendFrame s t ∧ s.mfault = none := by
  have key : ∀ s : State, settle (sendStart s) = .next t → SendFrame s t ∧ s.mfault = none := by
    intro s h
    obtain ⟨hm, ⟨-, rfl⟩ | ⟨-, rfl⟩⟩ := sendStart_next h <;> exact ⟨by constructor <;> rfl, hm⟩
  rw [exec_send, sendStep] at h
  split at h
  · unfold sendContinue at h
    split at h
    · obtain ⟨hm, offered, -, ⟨k, -, -, rfl⟩ | ⟨-, rfl⟩⟩ := sendWriteWith_next h <;>
        exact ⟨by constructor <;> simp, by simpa using hm⟩
    · obtain ⟨hm, rfl⟩ := sendFlushWith_next h
      exact ⟨by constructor <;> simp, by simpa using hm⟩
  · exact key s h
  · exact key s h

end Sys2Proof.Machine
end

