-- ==== Sys2Proof/Laws/Host.lean ====
section
/-! SUPPORT. What the host's transactions and the footprints can do, said once (42_host_port.md R180 to R189;
70_reset_and_hazards.md R241). -/

namespace Sys2Proof.Machine

/-- The map gives an offset at most one register, and that register's offset is it (R24). -/
theorem regAt_cases (off : Nat) : regAt off = none ∨ ∃ r, regAt off = some r ∧ r.offset = off := by
  unfold regAt
  cases h : allRegs.find? (fun r => r.offset == off) with
  | none => exact .inl rfl
  | some r => exact .inr ⟨r, rfl, by simpa using List.find?_some h⟩

/-- Every register is found at its offset (R24). -/
theorem regAt_offset (r : Reg) : regAt r.offset = some r := by
  cases r <;> decide

/-- No register lies at an offset that is in neither bank's used part (R26). -/
theorem regAt_unmapped {off : Nat} (h : (0x28 < off ∧ off < 0x40) ∨ 0x64 < off) : regAt off = none := by
  rcases regAt_cases off with h' | ⟨r, -, rfl⟩
  · exact h'
  · cases r <;> simp [Reg.offset] at h

/-- The footprint of a latched SEND is its frame (R241). -/
theorem fsuFootprint_send {c : FsuLatch} (h : decode .fsu c.cmd = .legal .send) :
    fsuFootprint c = [(c.frmAddr.toNat, c.frmLen.toNat)] := by
  unfold fsuFootprint
  rw [h]

/-- The host's RD: the record grows, or the offset is misaligned (R181, R182). -/
theorem hostRd_next {off : Nat} {s t : State} (h : settle (hostRd off s) = .next t) :
    off % 4 = 0 ∧ s.mfault = none ∧ t = s.returned (.reg off (s.readOffset off)) := by
  unfold hostRd at h
  split at h
  · next h4 => obtain ⟨rfl, hm⟩ := settle_next.1 h; exact ⟨h4, hm, rfl⟩
  · exact absurd h settle_recordFault_next

/-- The host's WR: a register written, nothing where no register is, or the offset is misaligned (R181, R183). -/
theorem hostWr_next {off : Nat} {v : Word} {s t : State} (h : settle (hostWr off v s) = .next t) :
    off % 4 = 0 ∧ ((∃ r, regAt off = some r ∧ r.offset = off ∧ t = writeReg r v s) ∨ (regAt off = none ∧ t = s)) := by
  unfold hostWr at h
  split at h
  · next h4 =>
    refine ⟨h4, ?_⟩
    rcases regAt_cases off with hr | ⟨r, hr, ho⟩ <;> rw [hr] at h <;> obtain ⟨rfl, -⟩ := settle_next.1 h
    · exact .inr ⟨hr, rfl⟩
    · exact .inl ⟨r, hr, ho, rfl⟩
  · exact absurd h settle_recordFault_next

/-- The host's BMR: the record grows and nothing else changes, or it faults (R186). -/
theorem hostBmr_next {u : UnitId} {addr : Word} {s t : State} (h : settle (hostBmr u addr s) = .next t) :
    s.mfault = none ∧ ∃ b, t = s.returned (.byte u addr b) := by
  unfold hostBmr at h
  dsimp only at h
  split at h
  · obtain ⟨rfl, hm⟩ := settle_next.1 h; exact ⟨hm, _, rfl⟩
  · split at h
    · exact absurd h settle_recordFault_next
    · split at h
      · exact absurd h settle_recordFault_next
      · obtain ⟨rfl, hm⟩ := settle_next.1 h; exact ⟨hm, _, rfl⟩

/-- The host's BMW: dropped outside the memory, else one byte set outside every hazard (R187, R241). -/
theorem hostBmw_next {u : UnitId} {addr : Word} {b : Byte} {s t : State} (h : settle (hostBmw u addr b s) = .next t) :
    (s.bufSize u.buf ≤ addr.toNat ∧ t = s) ∨
    (addr.toNat < s.bufSize u.buf ∧ s.hazard u addr.toNat = false ∧
      t = s.setBuf u.buf (memSet (s.buf u.buf) addr.toNat b)) := by
  unfold hostBmw at h
  dsimp only at h
  split at h
  · next ha => obtain ⟨rfl, -⟩ := settle_next.1 h; exact .inl ⟨ha, rfl⟩
  · split at h
    · exact absurd h settle_recordFault_next
    · next ha hz => obtain ⟨rfl, -⟩ := settle_next.1 h; exact .inr ⟨by omega, by simpa using hz, rfl⟩

end Sys2Proof.Machine
end

