-- ==== Sys2Proof/Laws/PerInstr.lean ====
section
/-! SUPPORT. The per-instruction family RoundTrip: each command is well formed and decodes from its own word
(30_encoding.md R86, R89). -/

namespace Sys2Proof.Laws.RoundTrip

/-- The command is well formed, and its word, at its unit, decodes to it. -/
def Statement (i : Instr) : Prop := i.wf = true ∧ decode i.unit (encode i) = .legal i

theorem decPix : Statement .decPix := ⟨Instr.wf_all _, by decide⟩

theorem encPix : Statement .encPix := ⟨Instr.wf_all _, by decide⟩

theorem decBuf (hdr : Bool) : Statement (.decBuf hdr) := ⟨Instr.wf_all _, by cases hdr <;> decide⟩

theorem encBuf : Statement .encBuf := ⟨Instr.wf_all _, by decide⟩

theorem build : Statement .build := ⟨Instr.wf_all _, by decide⟩

theorem send : Statement .send := ⟨Instr.wf_all _, by decide⟩

end Sys2Proof.Laws.RoundTrip
end

