-- ==== Sys2Proof/Laws/Session.lean ====
section
/-! SUPPORT. How the trace's readings grow by one event (41_frame_serializer.md R149, R158, R159), and a read at the
first unwritten byte of Safety.lean. -/

namespace Sys2Proof.Machine

theorem portPhase_snoc (t : List TxEvent) (e : TxEvent) :
    portPhase (t ++ [e]) = (portPhase t).bind fun q => portNext q e := by
  simp [portPhase]

theorem sessionBytes_snoc (t : List TxEvent) (e : TxEvent) :
    sessionBytes (t ++ [e]) = takenNext (sessionBytes t) e := by
  simp [sessionBytes]

/-- What `memRead` answers when a byte of the range holds no value (R66). -/
theorem memRead_of_firstUnwritten {m : Memory} {lo n a : Nat} (h : FirstUnwritten m lo n a) :
    memRead m lo n = .error a :=
  memRead_error_iff.2 ⟨h.from_lo, h.below_end, h.no_value, h.lowest⟩

end Sys2Proof.Machine
end

