-- ==== Sys2Proof/Machine/Script.lean ====
section
/-! DEFINITION. The host script of 30_encoding.md R90 and R91: the host's behaviour, not the block's. A layer over the
host's transactions that no step of the block calls (log 15). -/

namespace Sys2Proof.Machine

/-- The statements of the host script (R90). -/
inductive Stmt where
  /-- `WR <reg>, <imm32>` -/
  | wr (r : Reg) (v : Word)
  /-- `RD <reg> -> $t` -/
  | rd (r : Reg) (t : String)
  /-- `BMW <unit>, <addr>, [<b0>, <b1>, ...]` -/
  | bmw (u : UnitId) (addr : Word) (bytes : List Byte)
  /-- `BMR <unit>, <addr>, <n> -> $t` -/
  | bmr (u : UnitId) (addr : Word) (n : Nat) (t : String)
  /-- `<label>:` -/
  | label (l : String)
  /-- `BRSET $t, <bit>, <label>` -/
  | brset (t : String) (bit : Nat) (l : String)
  deriving DecidableEq, Repr

/-- The CMD register of a unit (R27, R38). -/
def UnitId.cmdReg : UnitId → Reg
  | .pcu => .pcuCmd
  | .fsu => .fsuCmd

/-- The STATUS register of a unit (R28, R39). -/
def UnitId.statusReg : UnitId → Reg
  | .pcu => .pcuStatus
  | .fsu => .fsuStatus

/-- `ISSUE <mnemonic>` (R91): write the command's word to its unit's CMD register. -/
def expandIssue (i : Instr) : List Stmt := [.wr (UnitId.cmdReg i.unit) (encode i)]

/-- `WAIT <unit>` (R91) with a fresh label `l`: poll STATUS into $s while BUSY, bit 0, is 1. -/
def expandWait (u : UnitId) (l : String) : List Stmt :=
  [.label l, .rd (UnitId.statusReg u) "s", .brset "s" 0 l]

/-- `RUN <mnemonic>` (R91). -/
def expandRun (i : Instr) (l : String) : List Stmt := expandIssue i ++ expandWait i.unit l

/-- `CLEAR <unit>` (R91): clear DONE and OVR. -/
def expandClear (u : UnitId) : List Stmt := [.wr (UnitId.statusReg u) 0x00000006#32]

/-- The transaction at the `k`-th byte from address `addr`, counted as a natural with no wrap-around (R9). None past
0xFFFFFFFF: BMR and BMW take a 32-bit address (R186, R187), so there is no such transaction (log 15). -/
def transactionAt (make : Word → Transaction) (addr : Word) (k : Nat) : Option Transaction :=
  let a := addr.toNat + k
  if a < 2 ^ 32 then some (make (BitVec.ofNat 32 a)) else none

/-- The host transactions of a statement, in order (R90): one a byte for BMW and BMR, none for a host-local step. An
entry `none` stands for a byte whose address is no 32-bit address. -/
def stmtTransactions : Stmt → List (Option Transaction)
  | .wr r v => [some (.wr r.offset v)]
  | .rd r _ => [some (.rd r.offset)]
  | .bmw u addr bytes => bytes.zipIdx.map fun p => transactionAt (fun a => .bmw u a p.1) addr p.2
  | .bmr u addr n _ => (List.range n).map fun k => transactionAt (fun a => .bmr u a) addr k
  | .label _ => []
  | .brset _ _ _ => []

/-- What a host variable holds. -/
inductive HostValue where
  | word (v : Word)
  | bytes (bs : List Byte)
  deriving DecidableEq, Repr

/-- The host agent at work on a script: the statement it is at, how many of its transactions are made, and the host
variables, the newest binding first. -/
structure HostAgent where
  script : List Stmt
  position : Nat
  made : Nat
  vars : List (String × HostValue)
  deriving DecidableEq, Repr

/-- Where a label stands in a script: its first place, or the script's end when it stands nowhere (log 15). -/
def labelAt (script : List Stmt) (l : String) : Nat := script.findIdx fun st => st == .label l

/-- Bit `bit` of host variable `t` (R90). None where the spec does not say what that bit is, which is the model's
DESIGN CHOICE (log 15): `t` is unset, `t` holds the byte list a BMR bound to it, or a word has no such bit. -/
def hostBit (vars : List (String × HostValue)) (t : String) (bit : Nat) : Option Bool :=
  match vars.lookup t with
  | some (.word v) => if bit < 32 then some (v.getLsbD bit) else none
  | some (.bytes _) => none
  | none => none

/-- The byte a BMR transaction returned. -/
def readByte : HostRead → Byte
  | .byte _ _ b => b
  | .reg _ _ => 0

/-- The word an RD transaction returned. -/
def readWord : HostRead → Word
  | .reg _ v => v
  | .byte _ _ _ => 0

/-- The variables after a statement whose reads are the last entries of `log` (R90). -/
def bindReads (st : Stmt) (log : List HostRead) (vars : List (String × HostValue)) : List (String × HostValue) :=
  match st with
  | .rd _ t => (t, .word ((log.getLast?.map readWord).getD 0)) :: vars
  | .bmr _ _ n t => (t, .bytes ((log.drop (log.length - n)).map readByte)) :: vars
  | .wr _ _ => vars
  | .bmw _ _ _ => vars
  | .label _ => vars
  | .brset _ _ _ => vars

/-- The next statement's place: BRSET continues at its label if the bit is 1, else at the next statement (R90). Where
the spec does not say what the bit is, the script stops at its end (DESIGN CHOICE, log 15). -/
def nextPosition (h : HostAgent) (st : Stmt) : Nat :=
  match st with
  | .brset t bit l =>
    match hostBit h.vars t bit with
    | some true => labelAt h.script l
    | some false => h.position + 1
    | none => h.script.length
  | .wr _ _ => h.position + 1
  | .rd _ _ => h.position + 1
  | .bmw _ _ _ => h.position + 1
  | .bmr _ _ _ _ => h.position + 1
  | .label _ => h.position + 1

/-- The host after a transaction of statement `st` has left the block in state `s`: at the statement's next
transaction, or, when that was its last one, at the next statement with what `st` read bound (R90). -/
def afterTransaction (h : HostAgent) (st : Stmt) (s : State) : HostAgent :=
  if h.made + 1 < (stmtTransactions st).length then { h with made := h.made + 1 }
  else { h with position := nextPosition h st, made := 0, vars := bindReads st s.hostLog h.vars }

/-- One step of a host that follows a script: its next transaction, or a host-local step (R90). The second component is
the block's state after the transaction, which `settle` and `step` judge as any other. A script that comes to a byte
past the 32-bit addresses stops at its end (DESIGN CHOICE, log 15). -/
def scriptTurn (h : HostAgent) (s : State) : HostAgent × State :=
  match h.script[h.position]? with
  | none => (h, s)
  | some st =>
    match (stmtTransactions st)[h.made]? with
    | none => (afterTransaction h st s, s)
    | some none => ({ h with position := h.script.length, made := 0 }, s)
    | some (some t) => (afterTransaction h st (hostStep t s), hostStep t s)

end Sys2Proof.Machine
end

