-- ==== Sys2Proof/Tests/Slice0.lean ====
section
/-! SUPPORT. Tests: words written out from 30_encoding.md, the checks of WellFormed on ill-formed terms, single steps
against the vectors of 95_test_vectors.md (each names its vector), and a witness for the hypotheses of each statement. -/

namespace Sys2Proof.Tests

open Sys2Proof.Machine

/-! ### Helpers -/

/-- The next state of an outcome. -/
def nextOf : Host.Outcome State Fault Refusal → Option State
  | .next s => some s
  | .fault _ => none
  | .refused _ => none

/-- The fault of an outcome. -/
def faultOf : Host.Outcome State Fault Refusal → Option Fault
  | .next _ => none
  | .fault r => some r
  | .refused _ => none

/-- The start state of the vectors: reset, both memories of 256 bytes, and known latches. -/
def start : State :=
  { State.reset with
    pbmSize := 256
    fbmSize := 256
    latPcu := ⟨0, 0, 0, 0, 0, 0, 0, 0⟩
    latFsu := ⟨0, 0, 0, 0, 0, 0, 0⟩
    draws := 0 }

/-- A PCU buffer command pending: word, W, H, SRC, LEN, DST, and the bytes of PBM from address `at0`. -/
def pcuPending (cmd w h src len dst : Word) (at0 : Nat) (bytes : List Byte) : State :=
  { start with
    phasePcu := .pending
    pcu := { start.pcu with status := ⟨true, false, false, .none⟩ }
    latPcu := ⟨cmd, w, h, src, len, dst, 0, 0⟩
    pbm := memWrite [] at0 bytes }

/-- An FSU command pending: word, P, n, Q, m, F, and the bytes of FBM from address 0. -/
def fsuPending (cmd p n q m f : Word) (bytes : List Byte) : State :=
  { start with
    phaseFsu := .pending
    fsu := { start.fsu with status := ⟨true, false, false, .none⟩ }
    latFsu := ⟨cmd, p, n, q, m, f, 0⟩
    fbm := memWrite [] 0 bytes }

/-- The frame of L1-7. -/
def syncFrame : List Byte := [0x73, 0x79, 0x6E, 0x63, 0x0A, 0x02, 0x00, 0x00, 0x00, 0x68, 0x69]

/-- A SEND of the L1-7 frame at FBM[16..26], in its loop, `sent` bytes taken in one write, with the answers to come. -/
def sending (sent : Nat) (answers : List WriteAnswer) (flushes : List FlushAnswer) : State :=
  { start with
    phaseFsu := .writing
    fsu := { start.fsu with
      status := ⟨true, false, false, .none⟩
      frmLen := 11
      txSent := BitVec.ofNat 32 sent
      txCalls := if sent = 0 then 0 else 1 }
    latFsu := ⟨2, 0, 0, 0, 0, 16, 11⟩
    fbm := memWrite [] 16 syncFrame
    txOpen := true
    txTrace := if sent = 0 then [.txOpen] else [.txOpen, .txWrite syncFrame (.count sent)]
    writeAnswers := answers
    flushAnswers := flushes }

/-- A SEND pending at FRM_ADDR `a`, FRM_LEN `l`. -/
def sendPending (a l : Word) : State :=
  { start with
    phaseFsu := .pending
    fsu := { start.fsu with status := ⟨true, false, false, .none⟩ }
    latFsu := ⟨2, 0, 0, 0, 0, a, l⟩
    fbm := memWrite [] 16 syncFrame
    writeAnswers := [.count 11]
    flushAnswers := [.ok] }

/-! ### Well-formedness: a word the check refuses, for each check (R80, R87) -/

theorem test_reserved_bits_ill_formed : CmdFields.wf .pcu ⟨0x01, false, 1⟩ = false := by decide
theorem test_zero_opcode_ill_formed : CmdFields.wf .pcu ⟨0x00, false, 0⟩ = false := by decide
theorem test_fsu_opcode_ill_formed : CmdFields.wf .fsu ⟨0x03, false, 0⟩ = false := by decide
theorem test_header_bit_ill_formed : CmdFields.wf .pcu ⟨0x04, true, 0⟩ = false := by decide
theorem test_header_bit_well_formed : CmdFields.wf .pcu ⟨0x03, true, 0⟩ = true := by decide

/-! ### Decoding: the words of R89, written out bit by bit: RES (23 bits), HDR, OP (8 bits) -/

theorem test_decode_decPix : decode .pcu 0b00000000000000000000000_0_00000001#32 = .legal .decPix := by decide
theorem test_decode_encPix : decode .pcu 0b00000000000000000000000_0_00000010#32 = .legal .encPix := by decide
theorem test_decode_decBuf : decode .pcu 0b00000000000000000000000_0_00000011#32 = .legal (.decBuf false) := by decide
theorem test_decode_decBuf_hdr : decode .pcu 0b00000000000000000000000_1_00000011#32 = .legal (.decBuf true) := by
  decide
theorem test_decode_encBuf : decode .pcu 0b00000000000000000000000_0_00000100#32 = .legal .encBuf := by decide
theorem test_decode_build : decode .fsu 0b00000000000000000000000_0_00000001#32 = .legal .build := by decide
theorem test_decode_send : decode .fsu 0b00000000000000000000000_0_00000010#32 = .legal .send := by decide

/-- L2-23: the illegal PCU words. -/
theorem test_decode_pcu_illegal :
    ([0x00000000#32, 0x00000005#32, 0x000000FF#32, 0x00000101#32, 0x00000102#32, 0x00000104#32, 0x00000203#32,
      0x80000001#32].map (decode .pcu)) =
    [.illegal .unknownOpcode, .illegal .unknownOpcode, .illegal .unknownOpcode, .illegal .headerBit,
      .illegal .headerBit, .illegal .headerBit, .illegal .reservedBits, .illegal .reservedBits] := by decide

/-- L2-23: the illegal FSU words. -/
theorem test_decode_fsu_illegal :
    ([0x00000000#32, 0x00000003#32, 0x00000101#32, 0x00000102#32, 0x00010001#32].map (decode .fsu)) =
    [.illegal .unknownOpcode, .illegal .unknownOpcode, .illegal .headerBit, .illegal .headerBit,
      .illegal .reservedBits] := by decide

theorem test_encode_words :
    [Instr.decPix, .encPix, .decBuf false, .decBuf true, .encBuf, .build, .send].map encode =
      [0x1#32, 0x2#32, 0x3#32, 0x103#32, 0x4#32, 0x1#32, 0x2#32] := by decide

theorem test_table_words :
    [1, 2, 3, 0x103, 4, 5].map (decodeTableWord 32) =
      [some .decPix, some .encPix, some (.decBuf false), some (.decBuf true), some .encBuf, none] := by decide

/-! ### Pixel arithmetic (L2-3, L2-4, C1) -/

theorem test_dec565 : [0x1234#16, 0xA5A5#16, 0x7BEF#16, 0x07E0#16].map dec565 =
    [⟨16, 69, 165⟩, ⟨165, 182, 41⟩, ⟨123, 125, 123⟩, ⟨0, 255, 0⟩] := by decide

theorem test_enc888 : [enc888 ⟨247, 251, 247⟩, enc888 ⟨7, 3, 7⟩, enc888 ⟨18, 52, 86⟩] =
    [0xF7DE#16, 0x0000#16, 0x11AA#16] := by decide

/-! ### Commands, one step each -/

/-- L2-3 by DEC_PIX: 0x8410 gives 0x00848284. -/
theorem test_decPix : (nextOf (exec .decPix { start with latPcu := { start.latPcu with pix565 := 0x8410 } })).map
    (fun t => (t.readOffset 0x20, t.readOffset 0x04)) = some (0x00848284#32, 0x00000002#32) := by decide

/-- L2-4 by ENC_PIX: (18, 52, 86) gives 0x11AA. -/
theorem test_encPix : (nextOf (exec .encPix { start with latPcu := { start.latPcu with rgb888 := 0x123456 } })).map
    (fun t => t.readOffset 0x1C) = some 0x000011AA#32 := by decide

/-- L2-9: the header is skipped. -/
theorem test_decBuf_header : (nextOf (step (pcuPending 0x103 2 1 0 8 16 0
      [0xDE, 0xAD, 0xBE, 0xEF, 0x00, 0x1F, 0xFF, 0xFF]))).map
    (fun t => (memRead t.pbm 16 6 |>.toOption, t.readOffset 0x04)) =
      some (some [0x00, 0x00, 0xFF, 0xFF, 0xFF, 0xFF], 0x00000002#32) := by decide

/-- L2-12: with the header, LEN = 5 leaves 1 byte of 2. -/
theorem test_decBuf_too_small : (nextOf (step (pcuPending 0x103 1 1 0 5 16 0 []))).map
    (fun t => (t.readOffset 0x04, t.readOffset 0x24, t.readOffset 0x28)) = some (0x12#32, 1#32, 2#32) := by decide

/-- L2-18: big-endian output. -/
theorem test_encBuf : (nextOf (step (pcuPending 0x4 2 1 0 6 16 0 [0x12, 0x34, 0x56, 0xF7, 0xFB, 0xF7]))).map
    (fun t => memRead t.pbm 16 4 |>.toOption) = some (some [0x11, 0xAA, 0xF7, 0xDE]) := by decide

/-- L2-21: the destination shares byte 8 with the source. -/
theorem test_encBuf_overlap : (nextOf (step (pcuPending 0x4 3 1 0 9 8 0 []))).map
    (fun t => (t.readOffset 0x04, t.pbm)) = some (0x72#32, []) := by decide

/-- L1-7: the frame of "sync" and "hi". -/
theorem test_build : (nextOf (step (fsuPending 1 0 4 4 2 16 [0x73, 0x79, 0x6E, 0x63, 0x68, 0x69]))).map
    (fun t => (memRead t.fbm 16 11 |>.toOption, t.readOffset 0x5C, t.readOffset 0x44)) =
      some (some syncFrame, 11#32, 0x00000002#32) := by decide

/-- L2-28: INVALID_PATH comes before the frame's range. -/
theorem test_build_invalid_path : (nextOf (step (fsuPending 1 0 3 0 0 254 [0x61, 0x20, 0x62]))).map
    (fun t => (t.readOffset 0x44, t.readOffset 0x5C)) = some (0x00000022#32, 0#32) := by decide

/-- L2-32: Fail after three bytes. -/
theorem test_send_fail : (nextOf (step (sending 3 [.fail] []))).map
    (fun t => (t.readOffset 0x44, t.readOffset 0x60, t.readOffset 0x64, t.txTrace.drop 2)) =
      some (0x42#32, 3#32, 2#32, [.txWrite (syncFrame.drop 3) .fail, .txClose]) := by decide

/-- L2-36: a count beyond the 11 bytes offered: the attempt is counted and the fault recorded. -/
theorem test_send_overrun : (sendStep (sending 0 [.count 12] [])).fsu.txCalls = 1 ∧
    (sendStep (sending 0 [.count 12] [])).mfault = some .transportOverrun ∧
    faultOf (step (sending 0 [.count 12] [])) = some .transportOverrun := by decide

/-! ### The host port, reset and the placed word -/

/-- L2-39: writing 0xF3 to STATUS clears DONE and keeps ECODE. -/
theorem test_status_w1c :
    (hostWr 0x44 0xF3 { start with fsu := { start.fsu with status := ⟨false, true, false, .transportWriteFailed⟩ } }
      ).readOffset 0x44 = 0x40#32 := by decide

/-- L2-6: the high half of PCU_PIX565 is ignored. -/
theorem test_pix565_write : (hostWr 0x1C 0xABCD07E0 start).readOffset 0x1C = 0x000007E0#32 := by decide

/-- L2-38: a CMD write while BUSY. -/
theorem test_overrun : (hostWr 0x40 1 (sending 0 [] [])).readOffset 0x44 = 0x00000005#32 := by decide

/-- L2-42: an unwritten byte faults, an address beyond the memory reads 0. -/
theorem test_bmr : faultOf (settle (hostBmr .pcu 5 start)) = some (.unwrittenRead .pbm 5) ∧
    (hostBmr .pcu 256 start).hostLog = [.byte .pcu 256 0] := by decide

/-- L2-44: reset during a SEND. -/
theorem test_reset_in_send : (resetBlock (sending 3 [] [])).txTrace.drop 2 = [.txClose] ∧
    (resetBlock (sending 3 [] [])).readOffset 0x44 = 0 := by decide

/-- The word of a row, placed after reset, runs as the first step (DEC_BUF with reset values: L2-13). -/
theorem test_placed_word : (nextOf (step (State.reset.withFetchWord 32 3))).map (fun t => t.readOffset 0x04) =
    some 0x00000032#32 := by decide

/-- L3-5's branch in the host script: bit 5 of 0x22 is set, so the host goes to the label. -/
theorem test_script_branch :
    nextPosition ⟨[.brset "s" 5 "END", .wr .fsuCmd 2, .label "END"], 0, 0, [("s", .word 0x22)]⟩ (.brset "s" 5 "END") =
      2 := by decide

/-- A buffer statement's addresses count up as naturals (R9): the byte after 0xFFFFFFFF is none, and no byte 0. -/
theorem test_script_no_wrap :
    stmtTransactions (.bmw .pcu 0xFFFFFFFF [1, 2]) = [some (.bmw .pcu 0xFFFFFFFF 1), none] ∧
    stmtTransactions (.bmr .fsu 16 2 "t") = [some (.bmr .fsu 16), some (.bmr .fsu 17)] := by decide

/-! ### Witnesses: concrete states that meet the hypotheses of the statements, clause by clause -/

theorem witness_IllegalWordsCompleteWithIllegalCommand :
    start.mfault = none ∧ start.pcu.status.busy = false ∧ start.fsu.status.busy = false ∧
    decode .pcu 0x5 = .illegal .unknownOpcode ∧ decode .fsu 0x3 = .illegal .unknownOpcode := by decide

theorem witness_UnitTurnRunsDecodedCommand :
    (pcuPending 3 1 1 0 2 2 0 []).mfault = none ∧
    { pcuPending 3 1 1 0 2 2 0 [] with agenda := [.pcu] }.agenda = [.pcu] ∧
    (pcuPending 3 1 1 0 2 2 0 []).phasePcu = .pending ∧
    decode .pcu (pcuPending 3 1 1 0 2 2 0 []).latPcu.cmd = .legal (.decBuf false) ∧
    { sendPending 16 11 with agenda := [.fsu] }.agenda = [.fsu] ∧ (sendPending 16 11).phaseFsu = .pending ∧
    decode .fsu (sendPending 16 11).latFsu.cmd = .legal .send ∧
    { sending 3 [] [] with agenda := [.fsu] }.agenda = [.fsu] ∧ (sending 3 [] []).phaseFsu = .writing := by decide

/-- The clauses for an illegal latched word (L2-23) and for an Idle unit. -/
theorem witness_UnitTurnRunsDecodedCommand_other :
    (pcuPending 5 0 0 0 0 0 0 []).mfault = none ∧ (pcuPending 5 0 0 0 0 0 0 []).phasePcu = .pending ∧
    decode .pcu (pcuPending 5 0 0 0 0 0 0 []).latPcu.cmd = .illegal .unknownOpcode ∧
    (fsuPending 0x101 0 0 0 0 0 []).mfault = none ∧ (fsuPending 0x101 0 0 0 0 0 []).phaseFsu = .pending ∧
    decode .fsu (fsuPending 0x101 0 0 0 0 0 []).latFsu.cmd = .illegal .headerBit ∧
    start.mfault = none ∧ start.phasePcu = .idle ∧ start.phaseFsu = .idle := by decide

theorem witness_AgendaNamesTheAgent :
    { start with agenda := [.host (.rd 4)] }.agenda = [.host (.rd 4)] ∧
    { start with agenda := [.reset] }.agenda = [.reset] ∧ { start with agenda := [.pcu] }.agenda = [.pcu] ∧
    { start with agenda := [.fsu] }.agenda = [.fsu] ∧ start.mfault = none := by decide

theorem witness_EmptyAgendaRunsUnits :
    start.mfault = none ∧ start.agenda = [] ∧ start.phasePcu = .idle ∧ start.phaseFsu = .idle ∧
    (pcuPending 1 0 0 0 0 0 0 []).phasePcu = .pending ∧
    decode .pcu (pcuPending 1 0 0 0 0 0 0 []).latPcu.cmd = .legal .decPix ∧
    (sendPending 16 11).phasePcu = .idle ∧ (sendPending 16 11).phaseFsu = .pending ∧
    decode .fsu (sendPending 16 11).latFsu.cmd = .legal .send ∧
    (sending 3 [] []).phasePcu = .idle ∧ (sending 3 [] []).phaseFsu = .writing ∧
    (pcuPending 5 0 0 0 0 0 0 []).phasePcu = .pending ∧
    decode .pcu (pcuPending 5 0 0 0 0 0 0 []).latPcu.cmd = .illegal .unknownOpcode ∧
    (fsuPending 3 0 0 0 0 0 []).phasePcu = .idle ∧ (fsuPending 3 0 0 0 0 0 []).phaseFsu = .pending ∧
    decode .fsu (fsuPending 3 0 0 0 0 0 []).latFsu.cmd = .illegal .unknownOpcode := by decide

theorem witness_RecordedFaultIsKept : (start.recordFault .transportOverrun).mfault = some .transportOverrun := by
  decide

theorem witness_PlacedWordRunsNext : State.reset.mfault = none ∧ 0x103 < 2 ^ 32 ∧
    decode .pcu (BitVec.ofNat 32 0x103) = .legal (.decBuf true) := by decide

theorem witness_DecodeStreamByPixel : ([0xF8, 0x00, 0x07, 0xE0] : List Byte).length = 2 * 2 ∧ 1 < 2 := by decide

theorem witness_EncodeStreamByPixel : ([0x12, 0x34, 0x56, 0xF7, 0xFB, 0xF7] : List Byte).length = 3 * 2 ∧ 1 < 2 := by
  decide

theorem witness_CompletionWritesStatus : CmdError.overlap.code ≠ .payloadTooSmall := by decide

theorem witness_DecPixCompletes : (pcuPending 1 0 0 0 0 0 0 []).mfault = none := by decide

theorem witness_EncPixCompletes : (pcuPending 2 0 0 0 0 0 0 []).mfault = none := by decide

/-- L2-15's boundary: with the header the destination may lie over the header bytes and below the pixel bytes. -/
theorem witness_DecBufCompletes_header : ∃ s : State, s = pcuPending 0x103 1 1 0 6 0 4 [0xF8, 0x00] ∧
    s.mfault = none ∧ 1 = s.latPcu.width.toNat * s.latPcu.height.toNat ∧ 3 * 1 ≤ 0xFFFFFFFF ∧
    4 = s.latPcu.srcAddr.toNat + 4 ∧ 0 = s.latPcu.dstAddr.toNat ∧
    s.latPcu.srcAddr.toNat + s.latPcu.srcLen.toNat ≤ s.pbmSize ∧ 4 + 2 * 1 ≤ s.latPcu.srcLen.toNat ∧
    0 + 3 * 1 ≤ s.pbmSize ∧ 0 + 3 * 1 ≤ 4 ∧ memRead s.pbm 4 (2 * 1) = .ok [0xF8, 0x00] :=
  ⟨_, rfl, by decide, by decide, by decide, by decide, by decide, by decide, by decide, by decide, by decide, rfl⟩

/-- L2-14's boundary: a source that ends exactly at PBM_SIZE. -/
theorem witness_DecBufCompletes_edge : ∃ s : State, s = pcuPending 3 1 1 254 2 0 254 [0xF8, 0x00] ∧
    s.mfault = none ∧ 1 = s.latPcu.width.toNat * s.latPcu.height.toNat ∧
    s.latPcu.srcAddr.toNat + s.latPcu.srcLen.toNat ≤ s.pbmSize ∧ 0 + 2 * 1 ≤ s.latPcu.srcLen.toNat ∧
    0 + 3 * 1 ≤ s.pbmSize ∧ 0 + 3 * 1 ≤ 254 ∧ memRead s.pbm 254 (2 * 1) = .ok [0xF8, 0x00] :=
  ⟨_, rfl, by decide, by decide, by decide, by decide, by decide, by decide, rfl⟩

/-- L2-17, with the destination adjoining the source. -/
theorem witness_EncBufCompletes : ∃ s : State, s = pcuPending 4 1 1 0 3 3 0 [0xFF, 0x00, 0x00] ∧
    s.mfault = none ∧ 1 = s.latPcu.width.toNat * s.latPcu.height.toNat ∧ 3 * 1 ≤ 0xFFFFFFFF ∧
    0 = s.latPcu.srcAddr.toNat ∧ 3 = s.latPcu.dstAddr.toNat ∧ 0 + s.latPcu.srcLen.toNat ≤ s.pbmSize ∧
    3 * 1 ≤ s.latPcu.srcLen.toNat ∧ 3 + 2 * 1 ≤ s.pbmSize ∧ 0 + 3 * 1 ≤ 3 ∧
    memRead s.pbm 0 (3 * 1) = .ok [0xFF, 0x00, 0x00] :=
  ⟨_, rfl, by decide, by decide, by decide, by decide, by decide, by decide, by decide, by decide, by decide, rfl⟩

/-- DEC_BUF with a header and ENC_BUF: the first consumed byte holds no value, the destination adjoins the source. -/
theorem witness_UnwrittenReadFaults_buffers : ∃ s r : State, s = pcuPending 0x103 1 1 0 6 6 0 [1, 2, 3, 4] ∧
    r = pcuPending 4 1 1 0 3 3 0 [] ∧ s.mfault = none ∧ r.mfault = none ∧
    1 = s.latPcu.width.toNat * s.latPcu.height.toNat ∧ 4 = s.latPcu.srcAddr.toNat + 4 ∧ 6 = s.latPcu.dstAddr.toNat ∧
    s.latPcu.srcAddr.toNat + s.latPcu.srcLen.toNat ≤ s.pbmSize ∧ 4 + 2 * 1 ≤ s.latPcu.srcLen.toNat ∧
    6 + 3 * 1 ≤ s.pbmSize ∧ 4 + 2 * 1 ≤ 6 ∧ FirstUnwritten s.pbm 4 2 4 ∧
    1 = r.latPcu.width.toNat * r.latPcu.height.toNat ∧ 0 = r.latPcu.srcAddr.toNat ∧ 3 = r.latPcu.dstAddr.toNat ∧
    0 + r.latPcu.srcLen.toNat ≤ r.pbmSize ∧ 3 * 1 ≤ r.latPcu.srcLen.toNat ∧ 3 + 2 * 1 ≤ r.pbmSize ∧
    0 + 3 * 1 ≤ 3 ∧ FirstUnwritten r.pbm 0 3 0 :=
  ⟨_, _, rfl, rfl, rfl, rfl, by decide, by decide, by decide, by decide, by decide, by decide, by decide,
    ⟨by decide, by decide, rfl, fun k h1 h2 => by omega⟩, by decide, by decide, by decide, by decide, by decide,
    by decide, by decide, ⟨by decide, by decide, rfl, fun k h1 h2 => by omega⟩⟩

/-- BUILD: the last byte of the path (L1-7 without it), and the last byte of the payload. -/
theorem witness_UnwrittenReadFaults_build : ∃ s r : State, s = fsuPending 1 0 4 4 2 16 [0x73, 0x79, 0x6E] ∧
    r = fsuPending 1 0 4 4 2 16 [0x73, 0x79, 0x6E, 0x63, 0x68] ∧ s.mfault = none ∧ r.mfault = none ∧
    0 + 4 ≤ s.fbmSize ∧ 4 + 2 ≤ s.fbmSize ∧ FirstUnwritten s.fbm 0 4 3 ∧
    memRead r.fbm 0 4 = .ok [0x73, 0x79, 0x6E, 0x63] ∧ 16 + (4 + 5 + 2) ≤ r.fbmSize ∧ 0 + 4 ≤ 16 ∧ 4 + 2 ≤ 16 ∧
    FirstUnwritten r.fbm 4 2 5 := by
  refine ⟨_, _, rfl, rfl, rfl, rfl, by decide, by decide, ⟨by decide, by decide, rfl, fun k h1 h2 => ?_⟩, rfl,
    by decide, by decide, by decide, ⟨by decide, by decide, rfl, fun k h1 h2 => ?_⟩⟩
  · obtain rfl | rfl | rfl : k = 0 ∨ k = 1 ∨ k = 2 := by omega
    · decide
    · decide
    · decide
  · obtain rfl : k = 4 := by omega
    decide

/-- SEND in its loop, its frame gone, and the host's read of an Idle unit's memory. -/
theorem witness_UnwrittenReadFaults_send : ∃ s : State, s = { sending 3 [] [] with fbm := [] } ∧ s.mfault = none ∧
    16 = s.latFsu.frmAddr.toNat ∧ 11 = s.latFsu.frmLen.toNat ∧ 3 = s.fsu.txSent.toNat ∧ s.phaseFsu = .writing ∧
    FirstUnwritten s.fbm (16 + 3) (11 - 3) 19 ∧
    (255#32).toNat < start.bufSize UnitId.pcu.buf ∧ (start.status .pcu).busy = false ∧
    memGet (start.buf UnitId.pcu.buf) 255 = none :=
  ⟨_, rfl, rfl, rfl, rfl, rfl, rfl, ⟨by decide, by decide, rfl, fun k h1 h2 => by omega⟩, by decide, rfl, rfl⟩

/-- Each branch of the PCU's order is met (L2-13, L2-14, L2-11, L2-14, L2-15), at DEC_BUF. -/
theorem witness_FirstFailingCheckIsReported_decBuf :
    [pcuPending 3 0 1 300 2 0 0 [], pcuPending 3 1 1 255 2 0 0 [], pcuPending 3 1 1 0 1 255 0 [],
      pcuPending 3 1 1 254 2 254 0 [], pcuPending 3 1 1 0 2 1 0 []].map
        (fun s => (nextOf (exec (.decBuf false) s)).map fun t => t.pcu.status.ecode) =
      [some .invalidArguments, some .rangeError, some .payloadTooSmall, some .rangeError, some .overlap] := by decide

/-- The same branches at ENC_BUF (L2-13, L2-19, L2-21). -/
theorem witness_FirstFailingCheckIsReported_encBuf :
    [pcuPending 4 0x55555556 1 0 4 0 0 [], pcuPending 4 1 1 254 3 0 0 [], pcuPending 4 2 1 0 5 16 0 [],
      pcuPending 4 1 1 0 3 255 0 [], pcuPending 4 3 1 0 9 8 0 []].map
        (fun s => (nextOf (exec .encBuf s)).map fun t => t.pcu.status.ecode) =
      [some .invalidArguments, some .rangeError, some .payloadTooSmall, some .rangeError, some .overlap] := by decide

/-- The branches at BUILD (L2-28, L2-26, L2-29) and SEND's range error (L2-35). -/
theorem witness_FirstFailingCheckIsReported_fsu :
    [fsuPending 1 255 2 0 0 0 [], fsuPending 1 0 0 255 2 0 [], fsuPending 1 0 3 0 0 254 [0x61, 0x20, 0x62],
      fsuPending 1 0 1 0 0 254 [0x61], fsuPending 1 0 4 8 2 2 [0x73, 0x79, 0x6E, 0x63]].map
        (fun s => (nextOf (exec .build s)).map fun t => t.fsu.status.ecode) =
      [some .rangeError, some .rangeError, some .invalidPath, some .rangeError, some .overlap] ∧
    (nextOf (exec .send (sendPending 250 11))).map (fun t => (t.fsu.status.ecode, t.txTrace)) =
      some (.rangeError, []) := by decide

theorem witness_CommandsRaiseOnlyTheirCodes :
    (∃ t, exec .decPix start = .next t) ∧ (∃ t, exec .encPix start = .next t) ∧
    (∃ t, exec (.decBuf true) start = .next t) ∧ (∃ t, exec .encBuf start = .next t) ∧
    (∃ t, exec .build start = .next t) ∧ (∃ t, exec .send (sending 11 [] [.ok]) = .next t ∧ t.phaseFsu = .idle) ∧
    (∃ t, pcuStep (pcuPending 0 0 0 0 0 0 0 []) = .next t) ∧ (∃ t, fsuStep (fsuPending 0 0 0 0 0 0 []) = .next t) :=
  ⟨⟨_, rfl⟩, ⟨_, rfl⟩, ⟨_, rfl⟩, ⟨_, rfl⟩, ⟨_, rfl⟩, ⟨_, rfl, rfl⟩, ⟨_, rfl⟩, ⟨_, rfl⟩⟩

theorem witness_ErrorsArePrecise :
    (∃ t, exec (.decBuf false) (pcuPending 3 1 1 0 2 1 0 [1, 2]) = .next t ∧ t.pcu.status.ecode ≠ .none) ∧
    (∃ t, exec .build (fsuPending 1 0 1 0 0 254 [0x61]) = .next t ∧ t.fsu.status.ecode ≠ .none) :=
  ⟨⟨_, rfl, by decide⟩, ⟨_, rfl, by decide⟩⟩

theorem witness_PixelCommandFrame : (∃ t, exec .decPix start = .next t) ∧ (∃ t, exec .encPix start = .next t) :=
  ⟨⟨_, rfl⟩, ⟨_, rfl⟩⟩

theorem witness_BufferCommandFrame :
    (∃ t, exec (.decBuf false) (pcuPending 3 1 1 0 2 2 0 [0xF8, 0x00]) = .next t ∧
      3 = 3 * (pcuPending 3 1 1 0 2 2 0 [0xF8, 0x00]).latPcu.pixels) ∧
    (∃ t, exec .encBuf (pcuPending 4 1 1 0 3 3 0 [1, 2, 3]) = .next t ∧
      2 = 2 * (pcuPending 4 1 1 0 3 3 0 [1, 2, 3]).latPcu.pixels) :=
  ⟨⟨_, rfl, by decide⟩, ⟨_, rfl, by decide⟩⟩

/-- L2-9's words: another header, the same pixels. -/
theorem witness_BufferCommandsReadOnlyPixelBytes :
    (pcuPending 0x103 1 1 0 6 16 0 [0xDE, 0xAD, 0xBE, 0xEF, 0x00, 0x1F]).latPcu.streamAddr true = 4 ∧
    (∀ a, 4 ≤ a → a < 4 + 2 → memGet (memWrite [] 4 [0x00, 0x1F]) a =
      memGet (pcuPending 0x103 1 1 0 6 16 0 [0xDE, 0xAD, 0xBE, 0xEF, 0x00, 0x1F]).pbm a) := by
  refine ⟨by decide, fun a h1 h2 => ?_⟩
  obtain rfl | rfl : a = 4 ∨ a = 5 := by omega
  · decide
  · decide

/-- L2-10: two trailing bytes. -/
theorem witness_TrailingSourceBytesAreIgnored :
    (∃ t, exec (.decBuf false) (pcuPending 3 2 1 0 4 16 0 [0xF8, 0x00, 0x07, 0xE0]) = .next t ∧
      t.pcu.status.ecode = .none) ∧ (4#32).toNat ≤ (6#32).toNat ∧ (0#32).toNat + (6#32).toNat ≤ 256 :=
  ⟨⟨_, rfl, by decide⟩, by decide, by decide⟩

theorem witness_FrameLayout : ([0x68, 0x69] : List Byte).length = (2#32).toNat ∧
    validPath [0x73, 0x79, 0x6E, 0x63] = true := by decide

/-- L2-24: the empty path and payload, the frame ending exactly at the memory's end. -/
theorem witness_BuildCompletes_empty : ∃ s : State, s = { fsuPending 1 0 0 0 0 0 [] with fbmSize := 5 } ∧
    s.mfault = none ∧ 0 = s.latFsu.pathLen.toNat ∧ 0 = s.latFsu.payLen.toNat ∧
    memRead s.fbm 0 0 = .ok [] ∧ 0 + (0 + 5 + 0) ≤ s.fbmSize :=
  ⟨_, rfl, by decide, by decide, by decide, rfl, by decide⟩

/-- L1-7, with the frame adjoining the payload. -/
theorem witness_BuildCompletes : ∃ s : State,
    s = fsuPending 1 0 4 4 2 6 [0x73, 0x79, 0x6E, 0x63, 0x68, 0x69] ∧ s.mfault = none ∧
    0 = s.latFsu.pathAddr.toNat ∧ 4 = s.latFsu.pathLen.toNat ∧ 4 = s.latFsu.payAddr.toNat ∧
    2 = s.latFsu.payLen.toNat ∧ 6 = s.latFsu.frmAddr.toNat ∧ 0 + 4 ≤ s.fbmSize ∧ 4 + 2 ≤ s.fbmSize ∧
    memRead s.fbm 0 4 = .ok [0x73, 0x79, 0x6E, 0x63] ∧
    (∀ b ∈ ([0x73, 0x79, 0x6E, 0x63] : List Byte), b ≠ 0x20#8 ∧ b ≠ 0x0A#8) ∧
    6 + (4 + 5 + 2) ≤ s.fbmSize ∧ 0 + 4 ≤ 6 ∧ 4 + 2 ≤ 6 ∧ memRead s.fbm 4 2 = .ok [0x68, 0x69] :=
  ⟨_, rfl, by decide, by decide, by decide, by decide, by decide, by decide, by decide, by decide, rfl, by decide,
    by decide, by decide, by decide, rfl⟩

theorem witness_BuildFrame :
    ∃ t, exec .build (fsuPending 1 0 4 4 2 6 [0x73, 0x79, 0x6E, 0x63, 0x68, 0x69]) = .next t := ⟨_, rfl⟩

/-- Both clauses: a frame just beyond FBM, one that just fits, and length 0 at the far end of the address space. -/
theorem witness_SendStarts :
    (sendPending 246 11).mfault = none ∧ (sendPending 246 11).phaseFsu = .pending ∧
    (11#32).toNat ≠ 0 ∧ (sendPending 246 11).fbmSize < (246#32).toNat + (11#32).toNat ∧
    (245#32).toNat + (11#32).toNat ≤ (sendPending 245 11).fbmSize ∧
    (sendPending 0xFFFFFFFF 0).latFsu.frmLen.toNat = 0 := by decide

/-- The three clauses at their boundaries: counts 1, 8 and 9 of 8 bytes offered, count 0 and Fail. -/
theorem witness_SendWriteStep :
    (∀ a ∈ [WriteAnswer.count 1, .count 8, .count 0, .fail, .count 9],
      (sending 3 [a] []).mfault = none ∧ (sending 3 [a] []).phaseFsu = .writing ∧
      (sending 3 [a] []).fsu.txSent.toNat < (sending 3 [a] []).latFsu.frmLen.toNat ∧
      (sending 3 [a] []).writeAnswer = a) ∧
    (1 ≤ 8 ∧ 8 ≤ 11 - 3) ∧ 11 - 3 < 9 := by decide

theorem witness_SendWriteStep_bytes :
    memRead (sending 3 [] []).fbm (16 + 3) (11 - 3) = .ok (syncFrame.drop 3) := rfl

theorem witness_SendFlushStep :
    (sending 11 [] [.ok]).mfault = none ∧ (sending 11 [] [.ok]).phaseFsu = .writing ∧
    (sending 11 [] [.ok]).fsu.txSent = (sending 11 [] [.ok]).latFsu.frmLen ∧
    (sending 11 [] [.ok]).flushAnswer = .ok ∧ (sending 11 [] [.fail]).flushAnswer = .fail := by decide

theorem witness_EmptySendOnlyFlushes :
    (sendPending 0 0).mfault = none ∧ (sendPending 0 0).phaseFsu = .pending ∧ (sendPending 0 0).latFsu.frmLen = 0 ∧
    (sendPending 0 0).fsu.txSent = 0 ∧ (sendPending 0 0).fsu.txCalls = 0 := by decide

theorem witness_SendFrame : ∃ t, exec .send (sending 3 [.count 8] []) = .next t := ⟨_, rfl⟩

/-- A SEND in its loop meets both invariants, so they speak of states beside the reset state. -/
theorem witness_invariant_sending : (sending 3 [.count 8] [.ok]).Inv ∧ (sending 3 [.count 8] [.ok]).SessionInv :=
  ⟨⟨⟨by decide, by decide, by decide, by decide⟩,
    ⟨by decide, by decide, by decide, by decide, by decide, by decide, by decide, by decide⟩,
    ⟨by decide, by decide, by decide, by decide, by decide, by decide⟩⟩, ⟨by decide, fun _ => rfl⟩⟩

/-- The same with every byte taken. -/
theorem witness_invariant_flushing : (sending 11 [] [.ok]).Inv ∧ (sending 11 [] [.ok]).SessionInv :=
  ⟨⟨⟨by decide, by decide, by decide, by decide⟩,
    ⟨by decide, by decide, by decide, by decide, by decide, by decide, by decide, by decide⟩,
    ⟨by decide, by decide, by decide, by decide, by decide, by decide⟩⟩, ⟨by decide, fun _ => rfl⟩⟩

theorem witness_SuccessfulSendDeliversFrame :
    (sending 11 [] [.ok]).Inv ∧ (sending 11 [] [.ok]).SessionInv ∧ (sending 11 [] [.ok]).phaseFsu = .writing ∧
    ∃ t, exec .send (sending 11 [] [.ok]) = .next t ∧ t.phaseFsu = .idle ∧ t.fsu.status.ecode = .none :=
  ⟨witness_invariant_flushing.1, witness_invariant_flushing.2, rfl, _, rfl, rfl, rfl⟩

theorem witness_StepKeepsInvariant :
    (sending 3 [.count 8] [.ok]).Inv ∧ ∃ t, step (sending 3 [.count 8] [.ok]) = .next t :=
  ⟨witness_invariant_sending.1, _, rfl⟩

theorem witness_StepKeepsSession :
    (sending 3 [.count 8] [.ok]).Inv ∧ (sending 3 [.count 8] [.ok]).SessionInv ∧
    ∃ t, step (sending 3 [.count 8] [.ok]) = .next t :=
  ⟨witness_invariant_sending.1, witness_invariant_sending.2, _, rfl⟩

theorem witness_SendEndsWithinItsBytes :
    (sending 3 [] []).mfault = none ∧ (sending 3 [] []).phaseFsu = .writing ∧
    (sending 3 [] []).fsu.txSent.toNat ≤ (sending 3 [] []).latFsu.frmLen.toNat ∧
    (sending 3 [] []).latFsu.frmLen.toNat - (sending 3 [] []).fsu.txSent.toNat < 9 := by decide

theorem witness_HostReadsRegisters : start.mfault = none ∧ 6 % 4 ≠ 0 ∧ 0x80 % 4 = 0 ∧ 0x64 % 4 = 0 := by decide

theorem witness_HostWritesRegisters : start.mfault = none ∧ 2 % 4 ≠ 0 ∧ 0x5C % 4 = 0 ∧ 0x5C ≠ 0x00 ∧ 0x5C ≠ 0x40 := by
  decide

theorem witness_CmdWriteIssues :
    start.mfault = none ∧ start.pcu.status.busy = false ∧ start.fsu.status.busy = false := by decide

theorem witness_BusyCmdWriteSetsOverrun :
    (pcuPending 1 0 0 0 0 0 0 []).mfault = none ∧ (pcuPending 1 0 0 0 0 0 0 []).pcu.status.busy = true ∧
    (sending 3 [] []).fsu.status.busy = true := by decide

/-- Outside the memory (256), and inside it while Idle: an unwritten byte. -/
theorem witness_HostBufferAccess :
    start.mfault = none ∧ start.bufSize UnitId.pcu.buf ≤ (256#32).toNat ∧
    (255#32).toNat < start.bufSize UnitId.pcu.buf ∧
    ¬((start.status .pcu).busy = true ∧ FootprintByte start .pcu 255) ∧
    memGet (start.buf UnitId.pcu.buf) 255 = none :=
  ⟨rfl, by decide, by decide, fun h => absurd h.1 (by decide), rfl⟩

/-- While the FSU is BUSY: the byte just beyond the frame of its SEND; and, once Idle, a byte that holds a value. -/
theorem witness_HostBufferAccess_busy :
    (sending 3 [] []).mfault = none ∧ (27#32).toNat < (sending 3 [] []).bufSize UnitId.fsu.buf ∧
    ¬(((sending 3 [] []).status .fsu).busy = true ∧ FootprintByte (sending 3 [] []) .fsu 27) ∧
    memGet ((fsuPending 1 0 0 0 0 0 [0x61]).buf UnitId.fsu.buf) 0 = some 0x61 := by
  refine ⟨rfl, by decide, fun h => ?_, rfl⟩
  rcases h.2 with ⟨h, -⟩ | ⟨-, -, h⟩
  · exact absurd h (by decide)
  · exact absurd h (by decide)

/-- The footprint's edges: bytes 16 and 26 of the frame are hazards while BUSY, and 27 is none. -/
theorem witness_FootprintHazardExactly :
    (sending 3 [] []).mfault = none ∧ ((sending 3 [] []).status .fsu).busy = true ∧
    faultOf (settle (hostBmw .fsu 16 0 (sending 3 [] []))) = some (.footprintHazard .fsu .fbm 16) ∧
    faultOf (settle (hostBmr .fsu 26 (sending 3 [] []))) = some (.footprintHazard .fsu .fbm 26) ∧
    faultOf (settle (hostBmw .fsu 27 0 (sending 3 [] []))) = none ∧
    faultOf (settle (hostBmw .pcu 2 0 (pcuPending 3 1 1 0 2 2 0 []))) = some (.footprintHazard .pcu .pbm 2) := by decide

theorem witness_TransactionsStayInTheirUnit :
    (∃ t, settle (hostStep (.wr 0x3C 1) start) = .next t) ∧ (∃ t, settle (hostStep (.wr 0x40 1) start) = .next t) ∧
    (∃ t, settle (hostStep (.bmw .pcu 0 1) start) = .next t) ∧
    (∃ t, settle (hostStep (.bmw .fsu 0 1) start) = .next t) ∧ (∃ t, settle (hostStep (.rd 4) start) = .next t) ∧
    (∃ t, settle (hostStep (.bmr .pcu 256) start) = .next t) :=
  ⟨⟨_, rfl⟩, ⟨_, rfl⟩, ⟨_, rfl⟩, ⟨_, rfl⟩, ⟨_, rfl⟩, ⟨_, rfl⟩⟩

theorem witness_BusyCommandIsUntouchedByHost :
    (∃ t, settle (hostStep (.wr 0x08 7) (pcuPending 3 1 1 0 2 2 0 [])) = .next t) ∧
    (pcuPending 3 1 1 0 2 2 0 []).pcu.status.busy = true ∧
    (∃ t, settle (hostStep (.wr 0x40 1) (sending 3 [] [])) = .next t) ∧ (sending 3 [] []).fsu.status.busy = true :=
  ⟨⟨_, rfl⟩, rfl, ⟨_, rfl⟩, rfl⟩

theorem witness_ResetStepEffect : (sending 3 [] []).mfault = none ∧ (sending 3 [] []).txOpen = true ∧
    start.mfault = none ∧ start.txOpen = false := by decide

theorem witness_CommandsAtResetValues : 5 ≤ 256 ∧ 4 < 5 := by decide

theorem witness_UnitTurnsCommute :
    ∃ a t, pcuStep { sending 3 [.count 8] [] with phasePcu := .pending, latPcu := ⟨1, 0, 0, 0, 0, 0, 0, 0⟩ } = .next a ∧
      fsuStep a = .next t := ⟨_, _, rfl, rfl⟩

theorem witness_UnitTurnsStayInTheirUnit :
    (∃ t, pcuStep (pcuPending 1 0 0 0 0 0 0 []) = .next t) ∧ (∃ t, fsuStep (sending 3 [.count 8] []) = .next t) :=
  ⟨⟨_, rfl⟩, ⟨_, rfl⟩⟩

theorem witness_StepKeepsParameters : ∃ t, step start = .next t := ⟨_, rfl⟩

end Sys2Proof.Tests
end

section
/-! PROOFS (00_scope.md). What every step of every agent keeps: both memory sizes, the fault record, and the port trace
as an initial part of the later one. -/

namespace Sys2Proof.Machine

/-! ### What a step can be -/

/-- A step that answers a next state starts with no fault recorded and is a quiet step or the step of the agent at the
head of the agenda (R14, R51, R77). -/
theorem step_next {s t : State} (h : step s = .next t) :
    s.mfault = none ∧
    ((s.agenda = [] ∧ quietStep s = .next t) ∨
     ∃ a rest, s.agenda = a :: rest ∧ agentStep a { s with agenda := rest } = .next t) := by
  unfold step at h
  split at h
  · cases h
  · next hm =>
    refine ⟨hm, ?_⟩
    split at h
    · next ha => exact .inl ⟨ha, h⟩
    · next a rest ha => exact .inr ⟨a, rest, ha, h⟩

/-- A quiet step is a turn of one of the units (log 3). -/
theorem quietStep_next {s t : State} (h : quietStep s = .next t) :
    (s.phasePcu = .pending ∧ pcuStep s = .next t) ∨ (s.phasePcu = .idle ∧ fsuStep s = .next t) := by
  unfold quietStep at h
  split at h
  · next hp => exact .inl ⟨hp, h⟩
  · next hp => exact .inr ⟨hp, h⟩

/-- A turn of the PCU is no change while Idle, the latched command's step, or the completion of an illegal word
(R117). -/
theorem pcuStep_next {s t : State} (h : pcuStep s = .next t) :
    (s.phasePcu = .idle ∧ t = s) ∨
    (s.phasePcu = .pending ∧ ∃ i, decode .pcu s.latPcu.cmd = .legal i ∧ exec i s = .next t) ∨
    (s.phasePcu = .pending ∧ (∃ e, decode .pcu s.latPcu.cmd = .illegal e) ∧ t = raise .pcu .illegalCommand s) := by
  unfold pcuStep at h
  split at h
  · next hp => exact .inl ⟨hp, (settle_next.1 h).1.symm⟩
  · next hp =>
    split at h
    · next i hd => exact .inr (.inl ⟨hp, i, hd, h⟩)
    · next e hd => exact .inr (.inr ⟨hp, ⟨e, hd⟩, (settle_next.1 h).1.symm⟩)

/-- A turn of the FSU is no change while Idle, the latched command's step, the completion of an illegal word, or the
next step of an open SEND (R167). -/
theorem fsuStep_next {s t : State} (h : fsuStep s = .next t) :
    (s.phaseFsu = .idle ∧ t = s) ∨
    (s.phaseFsu = .pending ∧ ∃ i, decode .fsu s.latFsu.cmd = .legal i ∧ exec i s = .next t) ∨
    (s.phaseFsu = .pending ∧ (∃ e, decode .fsu s.latFsu.cmd = .illegal e) ∧ t = raise .fsu .illegalCommand s) ∨
    (s.phaseFsu = .writing ∧ exec .send s = .next t) := by
  unfold fsuStep at h
  split at h
  · next hp => exact .inl ⟨hp, (settle_next.1 h).1.symm⟩
  · next hp =>
    split at h
    · next i hd => exact .inr (.inl ⟨hp, i, hd, h⟩)
    · next e hd => exact .inr (.inr (.inl ⟨hp, ⟨e, hd⟩, (settle_next.1 h).1.symm⟩))
  · next hp => exact .inr (.inr (.inr ⟨hp, h⟩))

/-! ### The kept record -/

/-- The memory sizes and the fault record are the same in both, and the earlier port trace is an initial part of the later
one (R5, R50, R51, R158). -/
structure KeepsRecord (s t : State) : Prop where
  pbmSize : t.pbmSize = s.pbmSize
  fbmSize : t.fbmSize = s.fbmSize
  mfault : t.mfault = s.mfault
  trace : s.txTrace <+: t.txTrace

theorem KeepsRecord.refl (s : State) : KeepsRecord s s := ⟨rfl, rfl, rfl, List.prefix_rfl⟩

theorem raise_keepsRecord (u : UnitId) (e : CmdError) (s : State) : KeepsRecord s (raise u e s) := by
  cases u <;> exact ⟨rfl, rfl, rfl, List.prefix_rfl⟩

/-! ### The commands -/

/-- SEND only appends to the port trace: the open event, a write attempt with or without the close, or the flush and
the close (R150 to R154, R158). -/
theorem exec_send_trace {s t : State} (h : exec .send s = .next t) : s.txTrace <+: t.txTrace := by
  have start : settle (sendStart s) = .next t → s.txTrace <+: t.txTrace := by
    intro h
    obtain ⟨-, ⟨-, rfl⟩ | ⟨-, rfl⟩⟩ := sendStart_next h
    · exact List.prefix_rfl
    · exact List.prefix_append _ _
  rw [exec_send, sendStep] at h
  split at h
  · unfold sendContinue at h
    split at h
    · obtain ⟨-, offered, -, ⟨k, -, -, rfl⟩ | ⟨-, rfl⟩⟩ := sendWriteWith_next h <;> simp
    · obtain ⟨-, rfl⟩ := sendFlushWith_next h
      simp
  · exact start h
  · exact start h

/-- Every command keeps the record. -/
theorem exec_keepsRecord {i : Instr} {s t : State} (h : exec i s = .next t) : KeepsRecord s t := by
  have ofPcu (hu : i.unit = .pcu) : KeepsRecord s t := by
    obtain ⟨⟨_, _, _, _, _, _, rfl, -⟩, -⟩ := exec_pcu_next hu h
    exact ⟨rfl, rfl, rfl, List.prefix_rfl⟩
  cases i with
  | decPix | encPix | decBuf | encBuf => exact ofPcu rfl
  | build =>
    obtain ⟨⟨_, _, _, rfl, -⟩, -⟩ := exec_build_next h
    exact ⟨rfl, rfl, rfl, List.prefix_rfl⟩
  | send =>
    obtain ⟨frame, -⟩ := exec_send_next h
    exact ⟨frame.pbmSize, frame.fbmSize, frame.mfault, exec_send_trace h⟩

/-! ### The host and reset -/

theorem setStatus_keepsRecord (u : UnitId) (st : Status) (s : State) : KeepsRecord s (s.setStatus u st) := by
  cases u <;> exact ⟨rfl, rfl, rfl, List.prefix_rfl⟩

theorem writeCmd_keepsRecord (u : UnitId) (w : Word) (s : State) : KeepsRecord s (writeCmd u w s) := by
  unfold writeCmd
  split
  · exact setStatus_keepsRecord u _ s
  · cases u <;> exact ⟨rfl, rfl, rfl, List.prefix_rfl⟩

theorem setBuf_keepsRecord (S : BufId) (m : Memory) (s : State) : KeepsRecord s (s.setBuf S m) := by
  cases S <;> exact ⟨rfl, rfl, rfl, List.prefix_rfl⟩

/-- A register write reaches a unit's bank, latch and phase only (R183 to R185). -/
theorem writeReg_keepsRecord (r : Reg) (v : Word) (s : State) : KeepsRecord s (writeReg r v s) := by
  cases r with
  | pcuCmd | fsuCmd => exact writeCmd_keepsRecord _ v s
  | pcuStatus => exact setStatus_keepsRecord .pcu _ s
  | fsuStatus => exact setStatus_keepsRecord .fsu _ s
  | _ => exact ⟨rfl, rfl, rfl, List.prefix_rfl⟩

/-- Every host transaction that answers a next state keeps the record. -/
theorem hostStep_keepsRecord {tr : Transaction} {s t : State} (h : settle (hostStep tr s) = .next t) :
    KeepsRecord s t := by
  cases tr with
  | rd off =>
    obtain ⟨-, -, rfl⟩ := hostRd_next h
    exact ⟨rfl, rfl, rfl, List.prefix_rfl⟩
  | wr off v =>
    obtain ⟨-, ⟨r, -, -, rfl⟩ | ⟨-, rfl⟩⟩ := hostWr_next h
    · exact writeReg_keepsRecord r v s
    · exact .refl _
  | bmr u addr =>
    obtain ⟨-, b, rfl⟩ := hostBmr_next h
    exact ⟨rfl, rfl, rfl, List.prefix_rfl⟩
  | bmw u addr b =>
    obtain ⟨-, rfl⟩ | ⟨-, -, rfl⟩ := hostBmw_next h
    · exact .refl _
    · exact setBuf_keepsRecord u.buf _ s

/-- Reset appends at most the close event (R230, R233). -/
theorem resetBlock_keepsRecord (s : State) : KeepsRecord s (resetBlock s) := by
  refine ⟨by simp, by simp, by simp, ?_⟩
  rw [resetBlock_txTrace]
  split
  · exact List.prefix_append _ _
  · exact List.prefix_rfl

/-! ### The agents -/

theorem pcuStep_keepsRecord {s t : State} (h : pcuStep s = .next t) : KeepsRecord s t := by
  obtain ⟨-, rfl⟩ | ⟨-, i, -, hi⟩ | ⟨-, -, rfl⟩ := pcuStep_next h
  · exact .refl _
  · exact exec_keepsRecord hi
  · exact raise_keepsRecord .pcu _ s

theorem fsuStep_keepsRecord {s t : State} (h : fsuStep s = .next t) : KeepsRecord s t := by
  obtain ⟨-, rfl⟩ | ⟨-, i, -, hi⟩ | ⟨-, -, rfl⟩ | ⟨-, hi⟩ := fsuStep_next h
  · exact .refl _
  · exact exec_keepsRecord hi
  · exact raise_keepsRecord .fsu _ s
  · exact exec_keepsRecord hi

theorem agentStep_keepsRecord {a : AgentStep} {s t : State} (h : agentStep a s = .next t) : KeepsRecord s t := by
  cases a with
  | host tr => exact hostStep_keepsRecord h
  | pcu => exact pcuStep_keepsRecord h
  | fsu => exact fsuStep_keepsRecord h
  | reset =>
    obtain ⟨rfl, -⟩ := settle_next.1 h
    exact resetBlock_keepsRecord s

/-- Taking the head off the agenda touches no part of the record, so the whole step keeps it. -/
theorem step_keepsRecord {s t : State} (h : step s = .next t) : KeepsRecord s t := by
  obtain ⟨-, ⟨-, hq⟩ | ⟨a, rest, -, ha⟩⟩ := step_next h
  · obtain ⟨-, hp⟩ | ⟨-, hf⟩ := quietStep_next hq
    · exact pcuStep_keepsRecord hp
    · exact fsuStep_keepsRecord hf
  · obtain ⟨hpbm, hfbm, hfault, htrace⟩ := agentStep_keepsRecord ha
    exact ⟨hpbm, hfbm, hfault, htrace⟩

/-- Settles O55: the step lemma of the kept record, from a state with no fault recorded. -/
theorem stepKeepsParameters : Obligations.StepKeepsParameters := by
  unfold Obligations.StepKeepsParameters
  intro s t h
  obtain ⟨hnone, -⟩ := step_next h
  obtain ⟨hpbm, hfbm, hfault, more, htrace⟩ := step_keepsRecord h
  exact ⟨hpbm, hfbm, hnone, hfault.trans hnone, more, htrace.symm⟩

end Sys2Proof.Machine
end

section
/-! PROOFS (10_state.md). Who takes a step, what a unit's turn can change, the STATUS word, and the block's invariant:
each agent's step keeps each of its three parts. -/

namespace Sys2Proof.Machine

/-! ### Who takes the step (R20, R51) -/

/-- With no fault recorded, the agent at the head of the agenda takes its step (R77). -/
theorem step_of_agenda {s : State} {a : AgentStep} {rest : List AgentStep} (hm : s.mfault = none)
    (ha : s.agenda = a :: rest) : step s = agentStep a { s with agenda := rest } := by
  unfold step
  rw [hm, ha]

/-- A recorded fault is the answer of every step (R14, R51). -/
theorem step_of_fault {s : State} {r : Fault} (hm : s.mfault = some r) : step s = .fault r := by
  unfold step
  rw [hm]

/-- Settles O5: each clause is the agenda's head named. -/
theorem agendaNamesTheAgent : Obligations.AgendaNamesTheAgent := by
  unfold Obligations.AgendaNamesTheAgent
  intro s rest hm
  exact ⟨fun _ ha => step_of_agenda hm ha, step_of_agenda hm, step_of_agenda hm, step_of_agenda hm⟩

/-- Settles O7: the agenda is no part of the record, and reset keeps the record. -/
theorem recordedFaultIsKept : Obligations.RecordedFaultIsKept := by
  unfold Obligations.RecordedFaultIsKept
  intro s r hm
  exact ⟨fun agenda => step_of_fault (s := { s with agenda := agenda }) hm, (resetBlock_mfault s).trans hm⟩

/-! ### The STATUS word (R28, R200) -/

/-- Bits 3:0 of STATUS are the flags, with bit 3 hardwired 0 (R28). -/
theorem statusWord_flags (st : Status) :
    st.word.getLsbD 0 = st.busy ∧ st.word.getLsbD 1 = st.done ∧ st.word.getLsbD 2 = st.ovr ∧
    st.word.getLsbD 3 = false := by
  simp only [Status.word, BitVec.getLsbD_append]
  simp

/-- Bits 31:8 of STATUS are hardwired 0 (R28). -/
theorem statusWord_reserved (st : Status) : st.word.extractLsb 31 8 = 0#24 := by
  apply BitVec.eq_of_getLsbD_eq
  intro i hi
  simp only [Status.word, BitVec.getLsbD_extractLsb, BitVec.getLsbD_append]
  simp

/-- Bits 7:4 of STATUS are the error code (R28, R200). -/
theorem statusWord_ecode (st : Status) : st.word.extractLsb 7 4 = st.ecode.bits := by
  apply BitVec.eq_of_getLsbD_eq
  intro i hi
  have hi4 : i < 4 := hi
  simp only [Status.word, BitVec.getLsbD_extractLsb, BitVec.getLsbD_append]
  simp [hi4]

/-- Settles O16: the fields of the word, and the code numbers by R200's table. -/
theorem statusWordFields : Obligations.StatusWordFields := by
  unfold Obligations.StatusWordFields
  intro st
  obtain ⟨hbusy, hdone, hovr, h3⟩ := statusWord_flags st
  exact ⟨hbusy, hdone, hovr, h3, statusWord_reserved st, statusWord_ecode st, rfl, rfl, rfl, rfl, rfl, rfl, rfl, rfl⟩

/-! ### What a unit's turn can change (R52, R216) -/

/-- A turn of the PCU that answers a next state changes nothing or makes a PCU change (R117). -/
theorem pcuStep_change {s t : State} (h : pcuStep s = .next t) : t = s ∨ PcuChange s t := by
  obtain ⟨-, rfl⟩ | ⟨-, i, hd, hi⟩ | ⟨-, -, rfl⟩ := pcuStep_next h
  · exact .inl rfl
  · exact .inr (exec_pcu_next (decode_unit hd) hi).1
  · exact .inr (pcuChange_raise s (by simp) (by simp))

/-- A turn of the FSU that answers a next state changes nothing, ends the latched command as BUILD may, or is a step of
SEND (R167). -/
theorem fsuStep_change {s t : State} (h : fsuStep s = .next t) :
    t = s ∨ (s.phaseFsu = .pending ∧ BuildChange s t) ∨
    ((s.phaseFsu = .pending ∧ decode .fsu s.latFsu.cmd = .legal .send ∨ s.phaseFsu = .writing) ∧
      exec .send s = .next t) := by
  obtain ⟨-, rfl⟩ | ⟨hp, i, hd, hi⟩ | ⟨hp, -, rfl⟩ | ⟨hp, hi⟩ := fsuStep_next h
  · exact .inl rfl
  · obtain rfl | rfl := decode_fsu_cases hd
    · exact .inr (.inl ⟨hp, (exec_build_next hi).1⟩)
    · exact .inr (.inr ⟨.inl ⟨hp, hd⟩, hi⟩)
  · exact .inr (.inl ⟨hp, buildChange_raise s (by simp [CmdError.code]) (by simp [CmdError.code])⟩)
  · exact .inr (.inr ⟨.inr hp, hi⟩)

/-- Settles O54: no field that a unit's turn can change belongs to the other unit. -/
theorem unitTurnsStayInTheirUnit : Obligations.UnitTurnsStayInTheirUnit := by
  unfold Obligations.UnitTurnsStayInTheirUnit
  intro s t
  constructor
  · intro h
    obtain rfl | ⟨_, _, _, _, _, _, rfl, -⟩ := pcuStep_change h <;>
      exact ⟨by constructor <;> rfl, by constructor <;> rfl⟩
  · intro h
    obtain rfl | ⟨-, _, _, _, rfl, -⟩ | ⟨-, hsend⟩ := fsuStep_change h
    · exact ⟨rfl, rfl, rfl, rfl⟩
    · exact ⟨rfl, rfl, rfl, rfl⟩
    · obtain ⟨frame, -⟩ := exec_send_next hsend
      exact ⟨frame.pcu, frame.phasePcu, frame.latPcu, frame.pbm⟩

/-! ### What each part of the invariant reads -/

/-- All that the PCU's part of the invariant reads of a state. -/
def State.pcuView (s : State) : Status × Word × Word × PcuPhase :=
  (s.pcu.status, s.pcu.errActual, s.pcu.errExpected, s.phasePcu)

/-- All that the FSU's part of the invariant reads of a state. -/
def State.fsuView (s : State) : Status × Word × Word × FsuPhase × Bool × FsuLatch × Nat :=
  (s.fsu.status, s.fsu.txSent, s.fsu.txCalls, s.phaseFsu, s.txOpen, s.latFsu, s.fbmSize)

/-- All that the memories' part of the invariant reads of a state. -/
def State.memView (s : State) : Memory × Memory × Nat × Nat :=
  (s.pbm, s.fbm, s.pbmSize, s.fbmSize)

theorem State.PcuInv.congr {s t : State} (hs : s.PcuInv) (h : t.pcuView = s.pcuView) : t.PcuInv := by
  simp only [State.pcuView, Prod.mk.injEq] at h
  obtain ⟨hstatus, hactual, hexpected, hphase⟩ := h
  obtain ⟨hactive, hclean, herr, hcodes⟩ := hs
  constructor <;> simpa only [hstatus, hactual, hexpected, hphase]

theorem State.FsuInv.congr {s t : State} (hs : s.FsuInv) (h : t.fsuView = s.fsuView) : t.FsuInv := by
  simp only [State.fsuView, Prod.mk.injEq] at h
  obtain ⟨hstatus, hsent, hcalls, hphase, hopen, hlatch, hsize⟩ := h
  obtain ⟨hactive, hclean, hcodes, hsession, hpending, hword, hrange, hoffset⟩ := hs
  constructor <;> simpa only [hstatus, hsent, hcalls, hphase, hopen, hlatch, hsize]

theorem State.MemInv.congr {s t : State} (hs : s.MemInv) (h : t.memView = s.memView) : t.MemInv := by
  simp only [State.memView, Prod.mk.injEq] at h
  obtain ⟨hpbm, hfbm, hpbmSize, hfbmSize⟩ := h
  obtain ⟨hpbmWf, hfbmWf, hpbmIn, hfbmIn, hpbmRange, hfbmRange⟩ := hs
  constructor <;> simpa only [hpbm, hfbm, hpbmSize, hfbmSize]

/-- A change outside what the three parts read keeps the invariant. -/
theorem State.Inv.congr {s t : State} (hs : s.Inv) (hp : t.pcuView = s.pcuView) (hf : t.fsuView = s.fsuView)
    (hm : t.memView = s.memView) : t.Inv :=
  ⟨hs.pcu.congr hp, hs.fsu.congr hf, hs.mem.congr hm⟩

/-! ### Units at rest -/

/-- An Idle PCU whose last command completed with a code of its own meets its part (R205, R206). -/
theorem pcuInv_of_completed {t : State} {st : Status} {code : ECode} (hphase : t.phasePcu = .idle)
    (hstatus : t.pcu.status = st.completed code)
    (herr : code ≠ .payloadTooSmall → t.pcu.errActual = 0 ∧ t.pcu.errExpected = 0)
    (hcode : code ≠ .invalidPath ∧ code ≠ .transportWriteFailed) : t.PcuInv := by
  constructor <;> simp [hphase, hstatus, Status.completed, hcode]
  exact herr

/-- An Idle FSU with the session closed, whose last command completed with a code of its own, meets its part (R205,
R206). -/
theorem fsuInv_of_completed {t : State} {st : Status} {code : ECode} (hphase : t.phaseFsu = .idle)
    (hopen : t.txOpen = false) (hstatus : t.fsu.status = st.completed code)
    (hcode : code ≠ .payloadTooSmall ∧ code ≠ .invalidArguments) : t.FsuInv := by
  constructor <;> simp [hphase, hopen, hstatus, Status.completed, hcode]

/-- The session is closed outside a SEND's loop (R50). -/
theorem State.FsuInv.closed {s : State} (hs : s.FsuInv) (h : s.phaseFsu ≠ .writing) : s.txOpen = false := by
  simpa using mt hs.open_iff_writing.1 h

/-! ### The memories (R60) -/

/-- Replacing the contents of a buffer memory keeps the memories' part when the new contents are canonical and inside. -/
theorem State.MemInv.setBuf {s : State} {S : BufId} {m : Memory} (hs : s.MemInv) (hwf : m.wf)
    (hin : ∀ c ∈ m, c.1 < s.bufSize S) : (s.setBuf S m).MemInv := by
  cases S with
  | pbm => exact ⟨hwf, hs.fbm_wf, hin, hs.fbm_inside, hs.pbm_size, hs.fbm_size⟩
  | fbm => exact ⟨hs.pbm_wf, hwf, hs.pbm_inside, hin, hs.pbm_size, hs.fbm_size⟩

/-- Both memories are canonical and inside their sizes. -/
theorem State.MemInv.buf {s : State} (hs : s.MemInv) (S : BufId) :
    (s.buf S).wf ∧ ∀ c ∈ s.buf S, c.1 < s.bufSize S := by
  cases S with
  | pbm => exact ⟨hs.pbm_wf, hs.pbm_inside⟩
  | fbm => exact ⟨hs.fbm_wf, hs.fbm_inside⟩

/-- What a command may leave in a buffer memory, its old contents or a write inside it, is canonical and inside. -/
theorem State.MemInv.setBuf_written {s : State} {S : BufId} {m : Memory} (hs : s.MemInv)
    (hm : m = s.buf S ∨ ∃ dst bs, m = memWrite (s.buf S) dst bs ∧ (bs = [] ∨ dst + bs.length ≤ s.bufSize S)) :
    (s.setBuf S m).MemInv := by
  obtain ⟨hwf, hin⟩ := hs.buf S
  obtain rfl | ⟨dst, bs, rfl, hr⟩ := hm
  · exact hs.setBuf hwf hin
  · exact hs.setBuf (memWrite_wf dst bs hwf) (memWrite_inside hr hin)

/-! ### The units' turns -/

theorem PcuChange.inv {s t : State} (hs : s.Inv) (h : PcuChange s t) : t.Inv := by
  obtain ⟨code, actual, expected, pix, rgb, m, rfl, herr, hpath, htransport, hm⟩ := h
  exact ⟨pcuInv_of_completed rfl rfl herr ⟨hpath, htransport⟩, hs.fsu.congr rfl,
    (hs.mem.setBuf_written (S := .pbm) hm).congr rfl⟩

theorem BuildChange.inv {s t : State} (hs : s.Inv) (hphase : s.phaseFsu = .pending) (h : BuildChange s t) : t.Inv := by
  obtain ⟨code, len, m, rfl, hsmall, hargs, hm⟩ := h
  have hclosed : s.txOpen = false := hs.fsu.closed (by simp [hphase])
  exact ⟨hs.pcu.congr rfl, fsuInv_of_completed rfl hclosed rfl ⟨hsmall, hargs⟩,
    (hs.mem.setBuf_written (S := .fbm) hm).congr rfl⟩

/-- SEND's start step: a frame outside FBM ends the command, one inside opens the session at offset 0 (R150). -/
theorem sendStart_fsuInv {s t : State} (hs : s.FsuInv) (hphase : s.phaseFsu = .pending)
    (hsend : decode .fsu s.latFsu.cmd = .legal .send) (h : settle (sendStart s) = .next t) : t.FsuInv := by
  obtain ⟨-, ⟨-, rfl⟩ | ⟨hr, rfl⟩⟩ := sendStart_next h
  · exact fsuInv_of_completed rfl (hs.closed (by simp [hphase])) rfl (by simp [CmdError.code])
  · have hbusy : s.fsu.status.busy = true := hs.busy_iff_active.2 (by simp [hphase])
    obtain ⟨hsent, hcalls⟩ := hs.pending_zero hphase
    exact {
      busy_iff_active := by simp [hbusy]
      busy_clean := hs.busy_clean
      own_codes := hs.own_codes
      open_iff_writing := by simp
      pending_zero := by simp
      writing_send := fun _ => hsend
      writing_range := fun _ => hr
      writing_offset := by simp [hsent, hcalls] }

/-- A write attempt that the transport took `k + 1` bytes of adds one to TX_CALLS and `k + 1` to TX_SENT, and neither sum
leaves 32 bits, since the offset stays inside the frame (R151, R152). -/
theorem txCounters_advance {calls sent : Word} {len k : Nat} (hcalls : calls.toNat ≤ sent.toNat)
    (hk : k + 1 ≤ len - sent.toNat) (hlen : len < 2 ^ 32) :
    (calls + 1).toNat ≤ (BitVec.ofNat 32 (sent.toNat + (k + 1))).toNat ∧
    (BitVec.ofNat 32 (sent.toNat + (k + 1))).toNat ≤ len := by
  rw [BitVec.toNat_add, BitVec.toNat_ofNat, Nat.mod_eq_of_lt (by omega : sent.toNat + (k + 1) < 2 ^ 32)]
  have hone : (1 : Word).toNat = 1 := rfl
  omega

/-- SEND's write step: the attempt moves the offset on inside the frame, or it fails and the session is closed (R151 to
R153). -/
theorem sendWriteWith_fsuInv {a : WriteAnswer} {s t : State} (hs : s.FsuInv) (hphase : s.phaseFsu = .writing)
    (h : settle (sendWriteWith a s) = .next t) : t.FsuInv := by
  obtain ⟨-, offered, -, ⟨k, -, hk, rfl⟩ | ⟨-, rfl⟩⟩ := sendWriteWith_next h
  · exact {
      busy_iff_active := hs.busy_iff_active
      busy_clean := hs.busy_clean
      own_codes := hs.own_codes
      open_iff_writing := hs.open_iff_writing
      pending_zero := by simp [hphase]
      writing_send := hs.writing_send
      writing_range := hs.writing_range
      writing_offset := fun _ => txCounters_advance (hs.writing_offset hphase).1 hk s.latFsu.frmLen.isLt }
  · exact fsuInv_of_completed rfl rfl rfl (by simp)

/-- SEND's flush step ends the command with the session closed (R154). -/
theorem sendFlushWith_fsuInv {a : FlushAnswer} {s t : State} (h : settle (sendFlushWith a s) = .next t) : t.FsuInv := by
  obtain ⟨-, rfl⟩ := sendFlushWith_next h
  exact fsuInv_of_completed rfl rfl rfl (by cases a <;> simp [flushCode])

/-- A step of SEND, started from a latched SEND or in its loop, keeps the invariant (R155, R167). -/
theorem exec_send_inv {s t : State} (hs : s.Inv)
    (hphase : s.phaseFsu = .pending ∧ decode .fsu s.latFsu.cmd = .legal .send ∨ s.phaseFsu = .writing)
    (h : exec .send s = .next t) : t.Inv := by
  obtain ⟨frame, -⟩ := exec_send_next h
  have hpcu : t.pcuView = s.pcuView := by simp only [State.pcuView, frame.pcu, frame.phasePcu]
  have hmem : t.memView = s.memView := by
    simp only [State.memView, frame.pbm, frame.fbm, frame.pbmSize, frame.fbmSize]
  refine ⟨hs.pcu.congr hpcu, ?_, hs.mem.congr hmem⟩
  rw [exec_send] at h
  obtain ⟨hp, hd⟩ | hp := hphase
  · rw [sendStep, hp] at h
    exact sendStart_fsuInv hs.fsu hp hd h
  · rw [sendStep, hp, sendContinue] at h
    dsimp only at h
    split at h
    · exact sendWriteWith_fsuInv (hs.fsu.congr (by simp [State.fsuView])) (by simpa using hp) h
    · exact sendFlushWith_fsuInv h

theorem pcuStep_inv {s t : State} (hs : s.Inv) (h : pcuStep s = .next t) : t.Inv := by
  obtain rfl | hc := pcuStep_change h
  · exact hs
  · exact hc.inv hs

theorem fsuStep_inv {s t : State} (hs : s.Inv) (h : fsuStep s = .next t) : t.Inv := by
  obtain rfl | ⟨hp, hc⟩ | ⟨hp, hsend⟩ := fsuStep_change h
  · exact hs
  · exact hc.inv hs hp
  · exact exec_send_inv hs hp hsend

/-! ### The host and reset -/

/-- A new STATUS with the same BUSY and code, and DONE set only where it was, keeps the invariant (R183, R185). -/
theorem State.Inv.setStatus {s : State} {u : UnitId} {st : Status} (hs : s.Inv) (hbusy : st.busy = (s.status u).busy)
    (hecode : st.ecode = (s.status u).ecode) (hdone : (s.status u).done = false → st.done = false) :
    (s.setStatus u st).Inv := by
  cases u with
  | pcu =>
    have hpcu := hs.pcu
    refine ⟨⟨?_, fun hb => ?_, ?_, ?_⟩, hs.fsu.congr rfl, hs.mem.congr rfl⟩
    · simpa [hbusy, State.status] using hpcu.busy_iff_active
    · obtain ⟨hd, he⟩ := hpcu.busy_clean (hbusy.symm.trans hb)
      exact ⟨hdone hd, hecode.trans he⟩
    · simpa [hbusy, hecode, State.status] using hpcu.err_zero
    · simpa [hecode, State.status] using hpcu.own_codes
  | fsu =>
    have hfsu := hs.fsu
    refine ⟨hs.pcu.congr rfl, { hfsu with busy_iff_active := ?_, busy_clean := fun hb => ?_, own_codes := ?_ },
      hs.mem.congr rfl⟩
    · simpa [hbusy, State.status] using hfsu.busy_iff_active
    · obtain ⟨hd, he⟩ := hfsu.busy_clean (hbusy.symm.trans hb)
      exact ⟨hdone hd, hecode.trans he⟩
    · simpa [hecode, State.status] using hfsu.own_codes

/-- An issue at a unit that is not BUSY keeps the invariant: the unit is Pending, with its flags and the SEND counters
cleared (R184). -/
theorem State.Inv.issue {s : State} {u : UnitId} (w : Word) (hs : s.Inv) (hidle : (s.status u).busy = false) :
    (issue u w s).Inv := by
  cases u with
  | pcu =>
    refine ⟨?_, hs.fsu.congr rfl, hs.mem.congr rfl⟩
    constructor <;> simp [Status.issued]
  | fsu =>
    have hclosed : s.txOpen = false := by
      refine hs.fsu.closed fun hw => ?_
      have hbusy : s.fsu.status.busy = true := hs.fsu.busy_iff_active.2 (by simp [hw])
      simp [State.status, hbusy] at hidle
    refine ⟨hs.pcu.congr rfl, ?_, hs.mem.congr rfl⟩
    constructor <;> simp [Status.issued, hclosed]

theorem writeCmd_inv {s : State} (u : UnitId) (w : Word) (hs : s.Inv) : (writeCmd u w s).Inv := by
  unfold writeCmd
  split
  · exact hs.setStatus rfl rfl id
  · next hidle => exact hs.issue w (by simpa using hidle)

theorem writeStatus_inv {s : State} (u : UnitId) (v : Word) (hs : s.Inv) : (writeStatus u v s).Inv :=
  hs.setStatus rfl rfl fun hd => by simp [Status.cleared, hd]

/-- A parameter register is in no part of the invariant: a running command reads its latch (R48, R189). -/
theorem writeReg_inv {s : State} (r : Reg) (v : Word) (hs : s.Inv) : (writeReg r v s).Inv := by
  cases r with
  | pcuCmd | fsuCmd => exact writeCmd_inv _ v hs
  | pcuStatus | fsuStatus => exact writeStatus_inv _ v hs
  | _ => exact hs.congr rfl rfl rfl

/-- A host write of one byte inside its memory keeps the invariant (R187). -/
theorem setBuf_memSet_inv {s : State} {S : BufId} {a : Nat} (b : Byte) (hs : s.Inv) (ha : a < s.bufSize S) :
    (s.setBuf S (memSet (s.buf S) a b)).Inv := by
  obtain ⟨hwf, hin⟩ := hs.mem.buf S
  have hmem := hs.mem.setBuf (memSet_wf a b hwf) (memSet_inside ha hin)
  cases S <;> exact ⟨hs.pcu.congr rfl, hs.fsu.congr rfl, hmem⟩

theorem hostStep_inv {tr : Transaction} {s t : State} (hs : s.Inv) (h : settle (hostStep tr s) = .next t) : t.Inv := by
  cases tr with
  | rd off =>
    obtain ⟨-, -, rfl⟩ := hostRd_next h
    exact hs.congr rfl rfl rfl
  | wr off v =>
    obtain ⟨-, ⟨r, -, -, rfl⟩ | ⟨-, rfl⟩⟩ := hostWr_next h
    · exact writeReg_inv r v hs
    · exact hs
  | bmr u addr =>
    obtain ⟨-, b, rfl⟩ := hostBmr_next h
    exact hs.congr rfl rfl rfl
  | bmw u addr b =>
    obtain ⟨-, rfl⟩ | ⟨ha, -, rfl⟩ := hostBmw_next h
    · exact hs
    · exact setBuf_memSet_inv b hs ha

/-- Reset leaves both units at rest and both memories empty, with the parameters as they were (R230). -/
theorem resetBlock_inv {s : State} (hs : s.Inv) : (resetBlock s).Inv := by
  refine ⟨?_, ?_, ?_⟩
  · constructor <;> simp [PcuBank.reset, Status.reset]
  · constructor <;> simp [FsuBank.reset, Status.reset]
  · constructor <;> simp [hs.mem.pbm_size, hs.mem.fbm_size]

/-! ### Every step -/

theorem agentStep_inv {a : AgentStep} {s t : State} (hs : s.Inv) (h : agentStep a s = .next t) : t.Inv := by
  cases a with
  | host tr => exact hostStep_inv hs h
  | pcu => exact pcuStep_inv hs h
  | fsu => exact fsuStep_inv hs h
  | reset =>
    obtain ⟨rfl, -⟩ := settle_next.1 h
    exact resetBlock_inv hs

/-- Settles O51: the agenda is in no part of the invariant, and each agent's step keeps it. -/
theorem stepKeepsInvariant : Obligations.StepKeepsInvariant := by
  unfold Obligations.StepKeepsInvariant
  intro s t hs h
  obtain ⟨-, ⟨-, hq⟩ | ⟨a, rest, -, ha⟩⟩ := step_next h
  · obtain ⟨-, hp⟩ | ⟨-, hf⟩ := quietStep_next hq
    · exact pcuStep_inv hs hp
    · exact fsuStep_inv hs hf
  · have hrest : State.Inv { s with agenda := rest } := hs.congr rfl rfl rfl
    exact agentStep_inv hrest ha

end Sys2Proof.Machine
end

section
/-! PROOFS (20_memory.md). The range tests in bytes, the turns of the two units in either order, and the fault of a read
of an unwritten byte. -/

namespace Sys2Proof.Machine

/-! ### The range tests (R63, R64) -/

/-- Every byte of a range lies below `size` exactly when the range is empty or its end does. -/
theorem forall_mem_range_lt_iff {size a n : Nat} :
    (∀ k, a ≤ k → k < a + n → k < size) ↔ n = 0 ∨ a + n ≤ size := by
  constructor
  · intro h
    by_contra hne
    have hlast := h (a + n - 1) (by omega) (by omega)
    omega
  · intro h k hlo hhi
    omega

/-- Two ranges share a byte exactly when neither is empty and each starts before the other's end; the greater of the two
first bytes is then in both. -/
theorem exists_mem_both_ranges_iff {a1 n1 a2 n2 : Nat} :
    (∃ k, a1 ≤ k ∧ k < a1 + n1 ∧ a2 ≤ k ∧ k < a2 + n2) ↔ 0 < n1 ∧ 0 < n2 ∧ a1 < a2 + n2 ∧ a2 < a1 + n1 := by
  constructor
  · rintro ⟨k, h⟩
    omega
  · intro h
    exact ⟨max a1 a2, by omega⟩

/-- Settles O56: the tests' inequalities are the two facts about bytes. -/
theorem rangeTestsMeanBytes : Obligations.RangeTestsMeanBytes := by
  unfold Obligations.RangeTestsMeanBytes
  exact ⟨fun _ _ _ => inRange_iff.trans forall_mem_range_lt_iff.symm,
    fun _ _ _ _ => overlaps_iff.trans exists_mem_both_ranges_iff.symm⟩

/-! ### Replacing one side of the state (R52)

A unit's turn neither reads nor writes the other unit's side, so it commutes with replacing that side. -/

/-- `s` with the PCU's side (bank, phase, latch and PBM) of `p`. -/
@[simps] def State.withPcuSide (s p : State) : State :=
  { s with pcu := p.pcu, phasePcu := p.phasePcu, latPcu := p.latPcu, pbm := p.pbm }

/-- `s` with everything of `f` but the PCU's side, PBM_SIZE and the fault record: the FSU's side, the session and the
model's environment. -/
@[simps] def State.withFsuSide (s f : State) : State :=
  { f with
    pcu := s.pcu, phasePcu := s.phasePcu, latPcu := s.latPcu, pbm := s.pbm, pbmSize := s.pbmSize, mfault := s.mfault }

theorem settle_withPcuSide {s t : State} (p : State) (h : settle s = .next t) :
    settle (s.withPcuSide p) = .next (t.withPcuSide p) := by
  obtain ⟨rfl, hm⟩ := settle_next.1 h
  exact settle_of_none hm

theorem settle_withFsuSide {s t : State} (f : State) (h : settle s = .next t) :
    settle (s.withFsuSide f) = .next (t.withFsuSide f) := by
  obtain ⟨rfl, hm⟩ := settle_next.1 h
  exact settle_of_none hm

/-! ### The PCU's turn beside any FSU side -/

theorem convert_withFsuSide (g : List Byte → List Byte) (src n dst : Nat) (s f : State) :
    convert g src n dst (s.withFsuSide f) = (convert g src n dst s).withFsuSide f := by
  unfold convert
  rw [State.withFsuSide_pbm]
  split <;> rfl

theorem decBuf_withFsuSide (hdr : Bool) (s f : State) :
    decBuf hdr (s.withFsuSide f) = (decBuf hdr s).withFsuSide f := by
  unfold decBuf
  simp only [State.withFsuSide_latPcu, State.withFsuSide_pbmSize]
  split
  · rfl
  · exact convert_withFsuSide _ _ _ _ s f

theorem encBuf_withFsuSide (s f : State) : encBuf (s.withFsuSide f) = (encBuf s).withFsuSide f := by
  unfold encBuf
  simp only [State.withFsuSide_latPcu, State.withFsuSide_pbmSize]
  split
  · rfl
  · exact convert_withFsuSide _ _ _ _ s f

theorem exec_pcu_withFsuSide {i : Instr} {s t : State} (f : State) (hu : i.unit = .pcu) (h : exec i s = .next t) :
    exec i (s.withFsuSide f) = .next (t.withFsuSide f) := by
  cases i with
  | decPix | encPix => exact settle_withFsuSide f h
  | decBuf hdr =>
    rw [exec_decBuf, decBuf_withFsuSide]
    exact settle_withFsuSide f h
  | encBuf =>
    rw [exec_encBuf, encBuf_withFsuSide]
    exact settle_withFsuSide f h
  | build | send => cases hu

theorem pcuStep_withFsuSide {s t : State} (f : State) (h : pcuStep s = .next t) :
    pcuStep (s.withFsuSide f) = .next (t.withFsuSide f) := by
  unfold pcuStep at h ⊢
  simp only [State.withFsuSide_phasePcu, State.withFsuSide_latPcu]
  split at h
  · exact settle_withFsuSide f h
  · split at h
    · next i hd => exact exec_pcu_withFsuSide f (decode_unit hd) h
    · exact settle_withFsuSide (s := raise .pcu .illegalCommand s) f h

/-! ### The FSU's turn beside any PCU side -/

/-- Every check and read of BUILD is of FBM and the FSU's latch, so both sides take the same branch. -/
theorem buildFrame_withPcuSide (s p : State) : buildFrame (s.withPcuSide p) = (buildFrame s).withPcuSide p := by
  unfold buildFrame
  simp only [State.withPcuSide_latFsu, State.withPcuSide_fbm, State.withPcuSide_fbmSize]
  repeat' split
  all_goals rfl

theorem sendStart_withPcuSide (s p : State) : sendStart (s.withPcuSide p) = (sendStart s).withPcuSide p := by
  unfold sendStart
  simp only [State.withPcuSide_latFsu, State.withPcuSide_fbmSize]
  split <;> rfl

theorem sendAccept_withPcuSide (len : Nat) (answer : WriteAnswer) (s p : State) :
    sendAccept len answer (s.withPcuSide p) = (sendAccept len answer s).withPcuSide p := by
  unfold sendAccept
  split
  · rfl
  · rfl
  · split <;> rfl

theorem sendWriteWith_withPcuSide (answer : WriteAnswer) (s p : State) :
    sendWriteWith answer (s.withPcuSide p) = (sendWriteWith answer s).withPcuSide p := by
  unfold sendWriteWith
  simp only [State.withPcuSide_latFsu, State.withPcuSide_fbm, State.withPcuSide_fsu]
  split
  · rfl
  · next offered _ =>
    exact sendAccept_withPcuSide offered.length answer
      ({ s with fsu := { s.fsu with txCalls := s.fsu.txCalls + 1 } }.emit (.txWrite offered answer)) p

theorem sendFlushWith_withPcuSide (answer : FlushAnswer) (s p : State) :
    sendFlushWith answer (s.withPcuSide p) = (sendFlushWith answer s).withPcuSide p := by
  cases answer <;> rfl

theorem takeWriteAnswer_withPcuSide (s p : State) :
    (s.withPcuSide p).takeWriteAnswer = s.takeWriteAnswer.withPcuSide p := by
  unfold State.takeWriteAnswer
  rw [State.withPcuSide_writeAnswers]
  split <;> rfl

theorem takeFlushAnswer_withPcuSide (s p : State) :
    (s.withPcuSide p).takeFlushAnswer = s.takeFlushAnswer.withPcuSide p := by
  unfold State.takeFlushAnswer
  rw [State.withPcuSide_flushAnswers]
  split <;> rfl

theorem sendContinue_withPcuSide (s p : State) : sendContinue (s.withPcuSide p) = (sendContinue s).withPcuSide p := by
  have hwrite : (s.withPcuSide p).writeAnswer = s.writeAnswer := rfl
  have hflush : (s.withPcuSide p).flushAnswer = s.flushAnswer := rfl
  unfold sendContinue
  rw [hwrite, hflush, takeWriteAnswer_withPcuSide, takeFlushAnswer_withPcuSide, sendWriteWith_withPcuSide,
    sendFlushWith_withPcuSide, State.withPcuSide_fsu, State.withPcuSide_latFsu]
  split <;> rfl

theorem sendStep_withPcuSide (s p : State) : sendStep (s.withPcuSide p) = (sendStep s).withPcuSide p := by
  unfold sendStep
  rw [State.withPcuSide_phaseFsu]
  split
  · exact sendContinue_withPcuSide s p
  · exact sendStart_withPcuSide s p
  · exact sendStart_withPcuSide s p

theorem exec_send_withPcuSide {s t : State} (p : State) (h : exec .send s = .next t) :
    exec .send (s.withPcuSide p) = .next (t.withPcuSide p) := by
  rw [exec_send, sendStep_withPcuSide]
  exact settle_withPcuSide p h

theorem exec_fsu_withPcuSide {i : Instr} {s t : State} (p : State) (hu : i.unit = .fsu) (h : exec i s = .next t) :
    exec i (s.withPcuSide p) = .next (t.withPcuSide p) := by
  cases i with
  | decPix | encPix | decBuf | encBuf => cases hu
  | build =>
    rw [exec_build, buildFrame_withPcuSide]
    exact settle_withPcuSide p h
  | send => exact exec_send_withPcuSide p h

theorem fsuStep_withPcuSide {s t : State} (p : State) (h : fsuStep s = .next t) :
    fsuStep (s.withPcuSide p) = .next (t.withPcuSide p) := by
  unfold fsuStep at h ⊢
  simp only [State.withPcuSide_phaseFsu, State.withPcuSide_latFsu]
  split at h
  · exact settle_withPcuSide p h
  · split at h
    · next i hd => exact exec_fsu_withPcuSide p (decode_unit hd) h
    · exact settle_withPcuSide (s := raise .fsu .illegalCommand s) p h
  · exact exec_send_withPcuSide p h

/-! ### The two turns in either order (R79, R216) -/

/-- A PCU turn changes the PCU's side only. -/
theorem pcuStep_withPcuSide_self {s t : State} (h : pcuStep s = .next t) : s.withPcuSide t = t := by
  obtain rfl | ⟨_, _, _, _, _, _, rfl, -⟩ := pcuStep_change h
  · rfl
  · rfl

/-- Putting the PCU's side back undoes a PCU turn. -/
theorem pcuStep_withPcuSide_undo {s t : State} (h : pcuStep s = .next t) : t.withPcuSide s = s :=
  (congrArg (·.withPcuSide s) (pcuStep_withPcuSide_self h)).symm

/-- An FSU turn that answers a next state leaves the PCU's side, PBM_SIZE and the fault record alone. -/
theorem fsuStep_withFsuSide_self {s t : State} (h : fsuStep s = .next t) : s.withFsuSide t = t := by
  obtain ⟨hbank, hphase, hlatch, hmem⟩ := (unitTurnsStayInTheirUnit s t).2 h
  obtain ⟨hsize, -, hfault, -⟩ := fsuStep_keepsRecord h
  simp only [State.withFsuSide, ← hbank, ← hphase, ← hlatch, ← hmem, ← hsize, ← hfault]

/-- Putting the FSU's side back undoes an FSU turn. -/
theorem fsuStep_withFsuSide_undo {s t : State} (h : fsuStep s = .next t) : t.withFsuSide s = s :=
  (congrArg (·.withFsuSide s) (fsuStep_withFsuSide_self h)).symm

/-- After a PCU turn and an FSU turn, the FSU's turn can be taken first: from the same state, with the PCU's side put
back, to the last state with the PCU's side put back. -/
theorem fsuStep_first {s a t : State} (hp : pcuStep s = .next a) (hf : fsuStep a = .next t) :
    fsuStep s = .next (t.withPcuSide s) ∧ pcuStep (t.withPcuSide s) = .next t := by
  have hfirst := fsuStep_withPcuSide s hf
  rw [pcuStep_withPcuSide_undo hp] at hfirst
  have hmid : s.withFsuSide t = t.withPcuSide s := fsuStep_withFsuSide_self hfirst
  have hsecond := pcuStep_withFsuSide t hp
  rw [hmid, fsuStep_withFsuSide_self hf] at hsecond
  exact ⟨hfirst, hsecond⟩

/-- After an FSU turn and a PCU turn, the PCU's turn can be taken first. -/
theorem pcuStep_first {s b t : State} (hf : fsuStep s = .next b) (hp : pcuStep b = .next t) :
    pcuStep s = .next (t.withFsuSide s) ∧ fsuStep (t.withFsuSide s) = .next t := by
  have hfirst := pcuStep_withFsuSide s hp
  rw [fsuStep_withFsuSide_undo hf] at hfirst
  have hmid : s.withPcuSide t = t.withFsuSide s := pcuStep_withPcuSide_self hfirst
  have hsecond := fsuStep_withPcuSide t hf
  rw [hmid, pcuStep_withPcuSide_self hp] at hsecond
  exact ⟨hfirst, hsecond⟩

/-- Settles O53: each turn commutes with replacing the other unit's side, so either can be taken first. -/
theorem unitTurnsCommute : Obligations.UnitTurnsCommute := by
  unfold Obligations.UnitTurnsCommute
  intro s t
  constructor
  · rintro ⟨a, hp, hf⟩
    exact ⟨_, fsuStep_first hp hf⟩
  · rintro ⟨b, hf, hp⟩
    exact ⟨_, pcuStep_first hf hp⟩

/-! ### Reads of unwritten bytes (R66, R220) -/

theorem convert_of_unwritten {f : List Byte → List Byte} {src n dst a : Nat} {s : State}
    (h : memRead s.pbm src n = .error a) : convert f src n dst s = s.recordFault (.unwrittenRead .pbm a) := by
  simp only [convert, h]

theorem decBuf_of_check {hdr : Bool} {s : State}
    (h : bufferCheck s.pbmSize s.latPcu (s.latPcu.streamAddr hdr) (s.latPcu.available hdr) (2 * s.latPcu.pixels)
      (3 * s.latPcu.pixels) = none) :
    decBuf hdr s = convert decodeStream (s.latPcu.streamAddr hdr) (2 * s.latPcu.pixels) s.latPcu.dstAddr.toNat s := by
  simp only [decBuf, h]

theorem encBuf_of_check {s : State}
    (h : bufferCheck s.pbmSize s.latPcu s.latPcu.srcAddr.toNat s.latPcu.srcLen.toNat (3 * s.latPcu.pixels)
      (2 * s.latPcu.pixels) = none) :
    encBuf s = convert encodeStream s.latPcu.srcAddr.toNat (3 * s.latPcu.pixels) s.latPcu.dstAddr.toNat s := by
  simp only [encBuf, h]

/-- DEC_BUF whose checks pass, at an unwritten byte of the stream (R114). -/
theorem exec_decBuf_unwritten {hdr : Bool} {s : State} {a : Nat} (hm : s.mfault = none)
    (hcheck : bufferCheck s.pbmSize s.latPcu (s.latPcu.streamAddr hdr) (s.latPcu.available hdr) (2 * s.latPcu.pixels)
      (3 * s.latPcu.pixels) = none)
    (hread : memRead s.pbm (s.latPcu.streamAddr hdr) (2 * s.latPcu.pixels) = .error a) :
    exec (.decBuf hdr) s = .fault (.unwrittenRead .pbm a) := by
  rw [exec_decBuf, decBuf_of_check hcheck, convert_of_unwritten hread, settle_recordFault _ hm]

/-- ENC_BUF whose checks pass, at an unwritten byte of the pixels (R115). -/
theorem exec_encBuf_unwritten {s : State} {a : Nat} (hm : s.mfault = none)
    (hcheck : bufferCheck s.pbmSize s.latPcu s.latPcu.srcAddr.toNat s.latPcu.srcLen.toNat (3 * s.latPcu.pixels)
      (2 * s.latPcu.pixels) = none)
    (hread : memRead s.pbm s.latPcu.srcAddr.toNat (3 * s.latPcu.pixels) = .error a) :
    exec .encBuf s = .fault (.unwrittenRead .pbm a) := by
  rw [exec_encBuf, encBuf_of_check hcheck, convert_of_unwritten hread, settle_recordFault _ hm]

/-- The path test in words (R140). -/
theorem validPath_iff {p : List Byte} : validPath p = true ↔ ∀ b ∈ p, b ≠ 0x20#8 ∧ b ≠ 0x0A#8 := by
  simp [validPath, Config.forbidden]

/-- Two ranges do not overlap when one is empty or each ends before the other starts (R64). -/
theorem overlaps_false_iff {a1 n1 a2 n2 : Nat} :
    overlaps a1 n1 a2 n2 = false ↔ n1 = 0 ∨ n2 = 0 ∨ a2 + n2 ≤ a1 ∨ a1 + n1 ≤ a2 := by
  rw [← Bool.not_eq_true, overlaps_iff]
  omega

/-- BUILD comes to the path once the path and payload ranges are in FBM (R146). -/
theorem exec_build_unwritten_path {s : State} {a : Nat} (hm : s.mfault = none)
    (hpath : inRange s.fbmSize s.latFsu.pathAddr.toNat s.latFsu.pathLen.toNat = true)
    (hpay : inRange s.fbmSize s.latFsu.payAddr.toNat s.latFsu.payLen.toNat = true)
    (hread : memRead s.fbm s.latFsu.pathAddr.toNat s.latFsu.pathLen.toNat = .error a) :
    exec .build s = .fault (.unwrittenRead .fbm a) := by
  have hbuild : buildFrame s = s.recordFault (.unwrittenRead .fbm a) := by simp [buildFrame, hpath, hpay, hread]
  rw [exec_build, hbuild, settle_recordFault _ hm]

/-- BUILD comes to the payload once every check has passed (R146). -/
theorem exec_build_unwritten_payload {s : State} {path : List Byte} {a : Nat} (hm : s.mfault = none)
    (hpath : inRange s.fbmSize s.latFsu.pathAddr.toNat s.latFsu.pathLen.toNat = true)
    (hpay : inRange s.fbmSize s.latFsu.payAddr.toNat s.latFsu.payLen.toNat = true)
    (hread : memRead s.fbm s.latFsu.pathAddr.toNat s.latFsu.pathLen.toNat = .ok path)
    (hvalid : validPath path = true)
    (hframe : inRange s.fbmSize s.latFsu.frmAddr.toNat s.latFsu.builtLength = true)
    (hoverPath : overlaps s.latFsu.frmAddr.toNat s.latFsu.builtLength s.latFsu.pathAddr.toNat
      s.latFsu.pathLen.toNat = false)
    (hoverPay : overlaps s.latFsu.frmAddr.toNat s.latFsu.builtLength s.latFsu.payAddr.toNat
      s.latFsu.payLen.toNat = false)
    (hpayload : memRead s.fbm s.latFsu.payAddr.toNat s.latFsu.payLen.toNat = .error a) :
    exec .build s = .fault (.unwrittenRead .fbm a) := by
  have hbuild : buildFrame s = s.recordFault (.unwrittenRead .fbm a) := by
    simp [buildFrame, hpath, hpay, hread, hvalid, hframe, hoverPath, hoverPay, hpayload]
  rw [exec_build, hbuild, settle_recordFault _ hm]

theorem sendWriteWith_of_unwritten {answer : WriteAnswer} {s : State} {a : Nat}
    (h : memRead s.fbm (s.latFsu.frmAddr.toNat + s.fsu.txSent.toNat)
      (s.latFsu.frmLen.toNat - s.fsu.txSent.toNat) = .error a) :
    sendWriteWith answer s = s.recordFault (.unwrittenRead .fbm a) := by
  simp only [sendWriteWith, h]

/-- SEND in its loop, at an unwritten byte of the frame's rest: that byte makes the rest non-empty, so the step is a
write step (R151, R167). -/
theorem exec_send_unwritten {s : State} {a : Nat} (hm : s.mfault = none) (hphase : s.phaseFsu = .writing)
    (h : FirstUnwritten s.fbm (s.latFsu.frmAddr.toNat + s.fsu.txSent.toNat)
      (s.latFsu.frmLen.toNat - s.fsu.txSent.toNat) a) :
    exec .send s = .fault (.unwrittenRead .fbm a) := by
  have hrest : s.fsu.txSent.toNat < s.latFsu.frmLen.toNat := by
    have := h.from_lo
    have := h.below_end
    omega
  have hread := memRead_of_firstUnwritten h
  rw [exec_send, sendStep, hphase]
  simp only [sendContinue, if_pos hrest]
  rw [sendWriteWith_of_unwritten (by simpa using hread), settle_recordFault _ (by simpa using hm)]

/-- A host read of an unwritten byte inside the memory of a unit that is not BUSY, where no hazard comes first (R186,
R241). -/
theorem hostBmr_unwritten {s : State} {u : UnitId} {addr : Word} (hm : s.mfault = none)
    (hin : addr.toNat < s.bufSize u.buf) (hidle : (s.status u).busy = false)
    (hbyte : memGet (s.buf u.buf) addr.toNat = none) :
    settle (hostBmr u addr s) = .fault (.unwrittenRead u.buf addr.toNat) := by
  have hhazard : s.hazard u addr.toNat = false := by simp [State.hazard, hidle]
  have hread : hostBmr u addr s = s.recordFault (.unwrittenRead u.buf addr.toNat) := by
    simp [hostBmr, hin, hhazard, hbyte]
  rw [hread, settle_recordFault _ hm]

/-- Settles O21: each reader's checks pass, and the memory read answers the first unwritten byte. -/
theorem unwrittenReadFaults : Obligations.UnwrittenReadFaults := by
  unfold Obligations.UnwrittenReadFaults
  intro s a hm
  refine ⟨?_, ?_, ?_, ?_, ?_⟩
  · rintro hdr n src dst rfl hn hmax rfl rfl hsrc hlen hdst hapart hfirst
    have hpos : 0 < s.latPcu.pixels := hn
    have havail : 2 * s.latPcu.pixels ≤ s.latPcu.available hdr := Nat.le_sub_of_add_le' hlen
    exact exec_decBuf_unwritten hm
      ((bufferCheck_none (by omega) (by omega)).2 ⟨by omega, hmax, .inr hsrc, havail, hdst, hapart⟩)
      (memRead_of_firstUnwritten hfirst)
  · rintro n src dst rfl hn hmax rfl rfl hsrc hlen hdst hapart hfirst
    have hpos : 0 < s.latPcu.pixels := hn
    exact exec_encBuf_unwritten hm
      ((bufferCheck_none (by omega) (by omega)).2 ⟨by omega, hmax, .inr hsrc, hlen, hdst, hapart⟩)
      (memRead_of_firstUnwritten hfirst)
  · rintro P n Q m F rfl rfl rfl rfl rfl hpath hpay
    constructor
    · intro hfirst
      exact exec_build_unwritten_path hm (inRange_iff.2 hpath) (inRange_iff.2 hpay) (memRead_of_firstUnwritten hfirst)
    · intro path hread hbytes hframe hapartPath hapartPay hfirst
      exact exec_build_unwritten_payload hm (inRange_iff.2 hpath) (inRange_iff.2 hpay) hread (validPath_iff.2 hbytes)
        (inRange_iff.2 (.inr hframe)) (overlaps_false_iff.2 (.inr hapartPath)) (overlaps_false_iff.2 (.inr hapartPay))
        (memRead_of_firstUnwritten hfirst)
  · rintro A L off rfl rfl rfl hphase hfirst
    exact exec_send_unwritten hm hphase hfirst
  · rintro u addr rfl hin hidle hbyte
    exact hostBmr_unwritten hm hin hidle hbyte

end Sys2Proof.Machine
end

section
/-! PROOFS (30_encoding.md). Decoding and encoding of command words, which words are illegal, and how the block ends an
illegal one. -/

namespace Sys2Proof

/-! ### Words and fields (R80) -/

/-- The three fields of a word are all of its bits (R80). -/
theorem wordOf_fieldsOf (w : Word) : wordOf (fieldsOf w) = w := by
  apply BitVec.eq_of_getLsbD_eq
  intro i hi
  simp only [wordOf, fieldsOf, BitVec.getLsbD_append, BitVec.getLsbD_extractLsb, BitVec.getLsbD_ofBool]
  obtain hop | rfl | hres : i < 8 ∨ i = 8 ∨ 9 ≤ i := by omega
  · simp [hop]
  · simp
  · rw [if_neg (by omega), if_neg (by omega), show 9 + (i - 8 - 1) = i by omega]
    simp; omega

/-! ### The opcode maps (R82 to R84) -/

/-- A command the PCU's map gives is written with the opcode and header bit it was read from (R82, R84). -/
theorem decodePcu_legal {op : BitVec 8} {hdr : Bool} {i : Instr} (h : decodePcu op hdr = .legal i) :
    i.fields = ⟨op, hdr, 0#23⟩ := by
  unfold decodePcu at h
  split_ifs at h with h1 h2 h3 h4
  · obtain ⟨rfl, rfl⟩ := plainCommand_legal h; rw [h1]; rfl
  · obtain ⟨rfl, rfl⟩ := plainCommand_legal h; rw [h2]; rfl
  · obtain rfl := Decoded.legal.inj h; rw [h3]; rfl
  · obtain ⟨rfl, rfl⟩ := plainCommand_legal h; rw [h4]; rfl

/-- A command the FSU's map gives is written with the opcode and header bit it was read from (R83, R84). -/
theorem decodeFsu_legal {op : BitVec 8} {hdr : Bool} {i : Instr} (h : decodeFsu op hdr = .legal i) :
    i.fields = ⟨op, hdr, 0#23⟩ := by
  unfold decodeFsu at h
  split_ifs at h with h1 h2
  · obtain ⟨rfl, rfl⟩ := plainCommand_legal h; rw [h1]; rfl
  · obtain ⟨rfl, rfl⟩ := plainCommand_legal h; rw [h2]; rfl

/-- A command without a header option is illegal exactly with HDR set (R84). -/
theorem plainCommand_illegal_iff {i : Instr} {hdr : Bool} :
    (∃ why, plainCommand i hdr = .illegal why) ↔ hdr = true := by
  cases hdr <;> simp [plainCommand]

/-- What the PCU's map refuses: HDR outside DEC_BUF, and every opcode but 1 to 4 (R82, R84). -/
theorem decodePcu_illegal_iff {op : BitVec 8} {hdr : Bool} :
    (∃ why, decodePcu op hdr = .illegal why) ↔ (hdr = true ∧ op ≠ 0x03#8) ∨ op = 0x00#8 ∨ 5 ≤ op.toNat := by
  unfold decodePcu
  split_ifs with h1 h2 h3 h4
  · simp [plainCommand_illegal_iff, h1]
  · simp [plainCommand_illegal_iff, h2]
  · simp [h3]
  · simp [plainCommand_illegal_iff, h4]
  · have hop : op = 0x00#8 ∨ 5 ≤ op.toNat := by bv_omega
    simp [hop]

/-- What the FSU's map refuses: HDR, and every opcode but 1 and 2 (R83, R84). -/
theorem decodeFsu_illegal_iff {op : BitVec 8} {hdr : Bool} :
    (∃ why, decodeFsu op hdr = .illegal why) ↔ hdr = true ∨ op = 0x00#8 ∨ 3 ≤ op.toNat := by
  unfold decodeFsu
  split_ifs with h1 h2
  · simp [plainCommand_illegal_iff, h1]
  · simp [plainCommand_illegal_iff, h2]
  · have hop : op = 0x00#8 ∨ 3 ≤ op.toNat := by bv_omega
    simp [hop]

/-! ### The decoder (R86) -/

/-- With reserved bits 0 the PCU's opcode map decides (R82, R86). -/
theorem decode_pcu_of_res {w : Word} (h : (fieldsOf w).res = 0#23) :
    decode .pcu w = decodePcu (fieldsOf w).op (fieldsOf w).hdr := if_pos h

/-- With reserved bits 0 the FSU's opcode map decides (R83, R86). -/
theorem decode_fsu_of_res {w : Word} (h : (fieldsOf w).res = 0#23) :
    decode .fsu w = decodeFsu (fieldsOf w).op (fieldsOf w).hdr := if_pos h

/-- A reserved bit set makes a word illegal at either unit (R80, R87). -/
theorem decode_of_res_ne {u : UnitId} {w : Word} (h : (fieldsOf w).res ≠ 0#23) :
    decode u w = .illegal .reservedBits := if_neg h

/-- No bit of a legal word is dropped: its fields are those its command is written with (R82 to R84). -/
theorem decode_fields {u : UnitId} {w : Word} {i : Instr} (h : decode u w = .legal i) : fieldsOf w = i.fields := by
  by_cases hres : (fieldsOf w).res = 0#23
  · have hfields : i.fields = ⟨(fieldsOf w).op, (fieldsOf w).hdr, 0#23⟩ := by
      cases u with
      | pcu => exact decodePcu_legal ((decode_pcu_of_res hres).symm.trans h)
      | fsu => exact decodeFsu_legal ((decode_fsu_of_res hres).symm.trans h)
    rw [hfields, ← hres]
  · rw [decode_of_res_ne hres] at h
    cases h

/-- A legal word is the word of its command (R89). -/
theorem encode_of_decode {u : UnitId} {w : Word} {i : Instr} (h : decode u w = .legal i) : encode i = w := by
  rw [encode, ← decode_fields h, wordOf_fieldsOf]

/-- Every command decodes from its own word at its own unit (R86, R89). -/
theorem decode_encode (i : Instr) : decode i.unit (encode i) = .legal i := by
  cases i with
  | decPix => exact Laws.RoundTrip.decPix.2
  | encPix => exact Laws.RoundTrip.encPix.2
  | decBuf hdr => exact (Laws.RoundTrip.decBuf hdr).2
  | encBuf => exact Laws.RoundTrip.encBuf.2
  | build => exact Laws.RoundTrip.build.2
  | send => exact Laws.RoundTrip.send.2

/-- The words the PCU refuses (R87). -/
theorem decode_pcu_illegal_iff {w : Word} :
    (∃ why, decode .pcu w = .illegal why) ↔
      (fieldsOf w).res ≠ 0#23 ∨ ((fieldsOf w).hdr = true ∧ (fieldsOf w).op ≠ 0x03#8) ∨
      (fieldsOf w).op = 0x00#8 ∨ 5 ≤ (fieldsOf w).op.toNat := by
  by_cases hres : (fieldsOf w).res = 0#23
  · rw [decode_pcu_of_res hres, decodePcu_illegal_iff, or_iff_right (not_not.2 hres)]
  · exact iff_of_true ⟨_, decode_of_res_ne hres⟩ (.inl hres)

/-- The words the FSU refuses (R87). -/
theorem decode_fsu_illegal_iff {w : Word} :
    (∃ why, decode .fsu w = .illegal why) ↔
      (fieldsOf w).res ≠ 0#23 ∨ (fieldsOf w).hdr = true ∨ (fieldsOf w).op = 0x00#8 ∨ 3 ≤ (fieldsOf w).op.toNat := by
  by_cases hres : (fieldsOf w).res = 0#23
  · rw [decode_fsu_of_res hres, decodeFsu_illegal_iff, or_iff_right (not_not.2 hres)]
  · exact iff_of_true ⟨_, decode_of_res_ne hres⟩ (.inl hres)

/-- Settles O1: the unit and the word of a decoded command, and each command's round trip. -/
theorem decodeAgreesWithEncode : Obligations.DecodeAgreesWithEncode := by
  unfold Obligations.DecodeAgreesWithEncode
  intro u w i
  constructor
  · intro h
    exact ⟨decode_unit h, encode_of_decode h⟩
  · rintro ⟨rfl, rfl⟩
    exact decode_encode i

/-- Settles O3: the seven words are the words of the seven commands. -/
theorem mnemonicWordsDecode : Obligations.MnemonicWordsDecode := by
  unfold Obligations.MnemonicWordsDecode
  exact ⟨decode_encode .decPix, decode_encode .encPix, decode_encode (.decBuf false), decode_encode (.decBuf true),
    decode_encode .encBuf, decode_encode .build, decode_encode .send⟩

end Sys2Proof

namespace Sys2Proof.Machine

/-! ### The issue and the end of an illegal word (R184, R206) -/

/-- A CMD write to a unit that is not BUSY issues its word (R184). -/
theorem writeCmd_idle {u : UnitId} {s : State} (w : Word) (h : (s.status u).busy = false) :
    writeCmd u w s = issue u w s := by
  simp [writeCmd, h]

/-- Offset 0x00 is PCU_CMD (R24). -/
theorem hostWr_pcuCmd (w : Word) (s : State) : hostWr 0x00 w s = writeCmd .pcu w s := rfl

/-- Offset 0x40 is FSU_CMD (R24). -/
theorem hostWr_fsuCmd (w : Word) (s : State) : hostWr 0x40 w s = writeCmd .fsu w s := rfl

/-- The turn of a Pending PCU that holds an illegal word (R87, R117). -/
theorem pcuStep_illegal {s : State} {why : Illegal} (hm : s.mfault = none) (hp : s.phasePcu = .pending)
    (hd : decode .pcu s.latPcu.cmd = .illegal why) : pcuStep s = .next (endPcu .illegalCommand 0 0 s) := by
  simp only [pcuStep, hp, hd]
  exact settle_of_none hm

/-- The turn of a Pending FSU that holds an illegal word (R87, R167). -/
theorem fsuStep_illegal {s : State} {why : Illegal} (hm : s.mfault = none) (hp : s.phaseFsu = .pending)
    (hd : decode .fsu s.latFsu.cmd = .illegal why) : fsuStep s = .next (endFsu .illegalCommand s) := by
  simp only [fsuStep, hp, hd]
  exact settle_of_none hm

/-- Settles O2: the refused words unit by unit, and each unit's turn at the issued word. -/
theorem illegalWordsCompleteWithIllegalCommand : Obligations.IllegalWordsCompleteWithIllegalCommand := by
  unfold Obligations.IllegalWordsCompleteWithIllegalCommand
  refine ⟨fun u w => ?_, fun w why s hm hidle hd => ?_, fun w why s hm hidle hd => ?_⟩
  · cases u with
    | pcu => simpa [fieldsOf] using decode_pcu_illegal_iff (w := w)
    | fsu => simpa [fieldsOf] using decode_fsu_illegal_iff (w := w)
  · rw [hostWr_pcuCmd, writeCmd_idle (u := .pcu) w hidle]
    exact ⟨rfl, rfl, pcuStep_illegal hm rfl hd⟩
  · rw [hostWr_fsuCmd, writeCmd_idle (u := .fsu) w hidle]
    exact ⟨rfl, rfl, fsuStep_illegal hm rfl hd⟩

end Sys2Proof.Machine
end

section
/-! PROOFS (40_pixel_codec.md). The pixel arithmetic: the two expansions, decoding and encoding of one pixel, and of a
stream pixel by pixel. -/

namespace Sys2Proof.Machine

/-! ### Pixels in numbers (R101, R102, R104, R67) -/

/-- `a` shifted past a `b` below it: the two have no bit in common, so the bitwise or is the sum. -/
theorem shiftLeft_or_eq_add {a b i : Nat} (h : b < 2 ^ i) : a <<< i ||| b = 2 ^ i * a + b := by
  rw [← Nat.shiftLeft_add_eq_or_of_lt h, Nat.shiftLeft_eq, Nat.mul_comm]

theorem expand5_toNat (f : BitVec 5) : (expand5 f).toNat = 8 * f.toNat + f.toNat / 4 := by
  have hf : f.toNat < 32 := f.isLt
  have hor : f.toNat <<< 3 ||| f.toNat / 4 = 8 * f.toNat + f.toNat / 4 := shiftLeft_or_eq_add (by omega)
  simp (disch := omega) only [expand5, BitVec.toNat_setWidth, BitVec.toNat_or, BitVec.toNat_shiftLeft,
    BitVec.toNat_ushiftRight, Nat.shiftRight_eq_div_pow, Nat.reducePow, Nat.mod_eq_of_lt, hor]

theorem expand6_toNat (f : BitVec 6) : (expand6 f).toNat = 4 * f.toNat + f.toNat / 16 := by
  have hf : f.toNat < 64 := f.isLt
  have hor : f.toNat <<< 2 ||| f.toNat / 16 = 4 * f.toNat + f.toNat / 16 := shiftLeft_or_eq_add (by omega)
  simp (disch := omega) only [expand6, BitVec.toNat_setWidth, BitVec.toNat_or, BitVec.toNat_shiftLeft,
    BitVec.toNat_ushiftRight, Nat.shiftRight_eq_div_pow, Nat.reducePow, Nat.mod_eq_of_lt, hor]

/-- The three terms of an encoded pixel do not overlap, so the encoded value is their sum (R104). -/
theorem enc888_toNat (p : Rgb) :
    (enc888 p).toNat = 2048 * (p.r.toNat / 8) + (32 * (p.g.toNat / 4) + p.b.toNat / 8) := by
  have hr : p.r.toNat < 256 := p.r.isLt
  have hg : p.g.toNat < 256 := p.g.isLt
  have hb : p.b.toNat < 256 := p.b.isLt
  have hlow : (p.g.toNat / 4) <<< 5 ||| p.b.toNat / 8 = 32 * (p.g.toNat / 4) + p.b.toNat / 8 :=
    shiftLeft_or_eq_add (by omega)
  have hall : (p.r.toNat / 8) <<< 11 ||| (32 * (p.g.toNat / 4) + p.b.toNat / 8) =
      2048 * (p.r.toNat / 8) + (32 * (p.g.toNat / 4) + p.b.toNat / 8) := shiftLeft_or_eq_add (by omega)
  simp (disch := omega) only [enc888, BitVec.toNat_setWidth, BitVec.toNat_or, BitVec.toNat_shiftLeft,
    BitVec.toNat_ushiftRight, Nat.shiftRight_eq_div_pow, Nat.reducePow, Nat.mod_eq_of_lt, Nat.lor_assoc, hlow, hall]

/-- The big-endian join of two bytes is the first before the second (R67). -/
theorem joinBE_eq_append (hi lo : Byte) : joinBE hi lo = hi ++ lo := by
  have hhi : hi.toNat < 256 := hi.isLt
  have hlo : lo.toNat < 256 := lo.isLt
  apply BitVec.eq_of_toNat_eq
  simp (disch := omega) only [joinBE, BitVec.toNat_setWidth, BitVec.toNat_or, BitVec.toNat_shiftLeft,
    BitVec.toNat_append, Nat.reducePow, Nat.mod_eq_of_lt]

/-! ### The expansions (R105) -/

theorem expand5_shiftRight (f : BitVec 5) : (expand5 f >>> 3).toNat = f.toNat := by
  have hf : f.toNat < 32 := f.isLt
  simp only [BitVec.toNat_ushiftRight, expand5_toNat, Nat.shiftRight_eq_div_pow]
  omega

theorem expand6_shiftRight (f : BitVec 6) : (expand6 f >>> 2).toNat = f.toNat := by
  have hf : f.toNat < 64 := f.isLt
  simp only [BitVec.toNat_ushiftRight, expand6_toNat, Nat.shiftRight_eq_div_pow]
  omega

/-- The top bits of an expanded 5-bit field are the field (R105). -/
theorem expand5_topBits (f : BitVec 5) : (expand5 f).extractLsb 7 3 = f := by
  apply BitVec.eq_of_toNat_eq
  rw [BitVec.extractLsb_toNat, ← BitVec.toNat_ushiftRight, expand5_shiftRight]
  exact Nat.mod_eq_of_lt f.isLt

/-- The top bits of an expanded 6-bit field are the field (R105). -/
theorem expand6_topBits (f : BitVec 6) : (expand6 f).extractLsb 7 2 = f := by
  apply BitVec.eq_of_toNat_eq
  rw [BitVec.extractLsb_toNat, ← BitVec.toNat_ushiftRight, expand6_shiftRight]
  exact Nat.mod_eq_of_lt f.isLt

/-- Settles O9: the strict order and the round trips are read off the expansions as numbers. -/
theorem expansionLaws : Obligations.ExpansionLaws := by
  unfold Obligations.ExpansionLaws
  refine ⟨by decide, fun f g h => ?_, fun f g h => ?_, expand5_shiftRight, expand6_shiftRight⟩
  · rw [BitVec.lt_def] at h ⊢
    simp only [expand5_toNat]
    omega
  · rw [BitVec.lt_def] at h ⊢
    simp only [expand6_toNat]
    omega

/-! ### One pixel (R100, R103, R104) -/

theorem red5_eq_extractLsb (v : BitVec 16) : red5 v = v.extractLsb 15 11 := by
  apply BitVec.eq_of_toNat_eq
  simp [red5, Nat.and_two_pow_sub_one_eq_mod _ 5]

theorem green6_eq_extractLsb (v : BitVec 16) : green6 v = v.extractLsb 10 5 := by
  apply BitVec.eq_of_toNat_eq
  simp [green6, Nat.and_two_pow_sub_one_eq_mod _ 6]

theorem blue5_eq_extractLsb (v : BitVec 16) : blue5 v = v.extractLsb 4 0 := by
  apply BitVec.eq_of_toNat_eq
  simp [blue5, Nat.and_two_pow_sub_one_eq_mod _ 5]

/-- Settles O10: each of R100's masked shifts is the field's own bits. -/
theorem decodedChannelsAreIsolated : Obligations.DecodedChannelsAreIsolated := by
  unfold Obligations.DecodedChannelsAreIsolated
  intro v
  simp only [dec565, red5_eq_extractLsb, green6_eq_extractLsb, blue5_eq_extractLsb, and_self]

/-- Settles O11: each field of the sum of the three terms is its own term. -/
theorem encodedFieldsAreTopBits : Obligations.EncodedFieldsAreTopBits := by
  unfold Obligations.EncodedFieldsAreTopBits
  intro p
  have hr : p.r.toNat < 256 := p.r.isLt
  have hg : p.g.toNat < 256 := p.g.isLt
  have hb : p.b.toNat < 256 := p.b.isLt
  refine ⟨BitVec.eq_of_toNat_eq ?_, BitVec.eq_of_toNat_eq ?_, BitVec.eq_of_toNat_eq ?_⟩
  all_goals
    simp only [BitVec.extractLsb_toNat, Nat.shiftRight_eq_div_pow, enc888_toNat]
    omega

/-- The three fields of a 16-bit value are all of its bits (R100). -/
theorem rgb565_ext {v w : BitVec 16} (hr : v.extractLsb 15 11 = w.extractLsb 15 11)
    (hg : v.extractLsb 10 5 = w.extractLsb 10 5) (hb : v.extractLsb 4 0 = w.extractLsb 4 0) : v = w := by
  have hr := congrArg BitVec.toNat hr
  have hg := congrArg BitVec.toNat hg
  have hb := congrArg BitVec.toNat hb
  apply BitVec.eq_of_toNat_eq
  simp only [BitVec.extractLsb_toNat, Nat.shiftRight_eq_div_pow] at hr hg hb
  omega

/-- Settles O12: each field of the result is the top bits of an expanded field of `v`, which are that field. -/
theorem encodeInvertsDecode : Obligations.EncodeInvertsDecode := by
  unfold Obligations.EncodeInvertsDecode
  intro v
  obtain ⟨hr, hg, hb⟩ := encodedFieldsAreTopBits (dec565 v)
  obtain ⟨hred, hgreen, hblue⟩ := decodedChannelsAreIsolated v
  rw [hred, expand5_topBits] at hr
  rw [hgreen, expand6_topBits] at hg
  rw [hblue, expand5_topBits] at hb
  exact rgb565_ext hr hg hb

/-! ### Streams (R107, R108) -/

/-- What a decoded stream holds after `i` pixels is the decode of the rest. -/
theorem drop_decodeStream (i : Nat) (s : List Byte) :
    (decodeStream s).drop (3 * i) = decodeStream (s.drop (2 * i)) := by
  induction i generalizing s with
  | zero => rfl
  | succ i ih =>
    match s with
    | hi :: lo :: rest => simpa [decodeStream, Rgb.bytes, Nat.mul_succ] using ih rest
    | [_] => simp [decodeStream, Nat.mul_succ]
    | [] => simp [decodeStream]

/-- What an encoded stream holds after `i` pixels is the encode of the rest. -/
theorem drop_encodeStream (i : Nat) (s : List Byte) :
    (encodeStream s).drop (2 * i) = encodeStream (s.drop (3 * i)) := by
  induction i generalizing s with
  | zero => rfl
  | succ i ih =>
    match s with
    | r :: g :: b :: rest => simpa [encodeStream, be16, Nat.mul_succ] using ih rest
    | [_, _] => simp [encodeStream, Nat.mul_succ]
    | [_] => simp [encodeStream, Nat.mul_succ]
    | [] => simp [encodeStream]

theorem getElem?_add_of_drop {α : Type} {l l' : List α} {k : Nat} (h : l.drop k = l') (j : Nat) :
    l[k + j]? = l'[j]? := by
  rw [← h, List.getElem?_drop]

/-- Settles O13: pixel `i` is the first pixel of the rest of the stream, and of the rest of the output. -/
theorem decodeStreamByPixel : Obligations.DecodeStreamByPixel := by
  unfold Obligations.DecodeStreamByPixel
  intro n s hlen
  refine ⟨decodeStream_length hlen, fun i hi => ?_⟩
  have hrest : 2 ≤ (s.drop (2 * i)).length := by rw [List.length_drop]; omega
  match hs : s.drop (2 * i), hrest with
  | hi :: lo :: rest, _ =>
    have hout := drop_decodeStream i s
    rw [hs, decodeStream, joinBE_eq_append] at hout
    exact ⟨hi, lo, getElem?_add_of_drop hs 0, getElem?_add_of_drop hs 1, getElem?_add_of_drop hout 0,
      getElem?_add_of_drop hout 1, getElem?_add_of_drop hout 2⟩

/-- Settles O14: pixel `i` is the first pixel of the rest of the stream, and of the rest of the output. -/
theorem encodeStreamByPixel : Obligations.EncodeStreamByPixel := by
  unfold Obligations.EncodeStreamByPixel
  intro n s hlen
  refine ⟨encodeStream_length hlen, fun i hi => ?_⟩
  have hrest : 3 ≤ (s.drop (3 * i)).length := by rw [List.length_drop]; omega
  match hs : s.drop (3 * i), hrest with
  | r :: g :: b :: rest, _ =>
    have hout := drop_encodeStream i s
    rw [hs, encodeStream] at hout
    exact ⟨r, g, b, getElem?_add_of_drop hs 0, getElem?_add_of_drop hs 1, getElem?_add_of_drop hs 2,
      getElem?_add_of_drop hout 0, getElem?_add_of_drop hout 1⟩

end Sys2Proof.Machine
end

section
/-! PROOFS (40_pixel_codec.md). The turns of the two units, and the PCU's four commands: when they complete, what they
leave unchanged and which bytes they look at. -/

namespace Sys2Proof.Machine

/-! ### The units' turns (R117, R167) -/

/-- A turn of an Idle PCU changes nothing (log 3). -/
theorem pcuStep_idle {s : State} (hm : s.mfault = none) (hp : s.phasePcu = .idle) : pcuStep s = .next s := by
  simp only [pcuStep, hp]
  exact settle_of_none hm

theorem pcuStep_legal {s : State} {i : Instr} (hp : s.phasePcu = .pending)
    (hd : decode .pcu s.latPcu.cmd = .legal i) : pcuStep s = exec i s := by
  simp only [pcuStep, hp, hd]

/-- A turn of an Idle FSU changes nothing (log 3). -/
theorem fsuStep_idle {s : State} (hm : s.mfault = none) (hp : s.phaseFsu = .idle) : fsuStep s = .next s := by
  simp only [fsuStep, hp]
  exact settle_of_none hm

theorem fsuStep_legal {s : State} {i : Instr} (hp : s.phaseFsu = .pending)
    (hd : decode .fsu s.latFsu.cmd = .legal i) : fsuStep s = exec i s := by
  simp only [fsuStep, hp, hd]

theorem fsuStep_writing {s : State} (hp : s.phaseFsu = .writing) : fsuStep s = exec .send s := by
  simp only [fsuStep, hp]

/-- With an empty agenda a Pending PCU takes the step (log 3). -/
theorem step_of_pending_pcu {s : State} (hm : s.mfault = none) (ha : s.agenda = []) (hp : s.phasePcu = .pending) :
    step s = pcuStep s := by
  simp only [step, hm, ha, quietStep, hp]

/-- With an empty agenda and the PCU Idle the FSU takes the step (log 3). -/
theorem step_of_idle_pcu {s : State} (hm : s.mfault = none) (ha : s.agenda = []) (hp : s.phasePcu = .idle) :
    step s = fsuStep s := by
  simp only [step, hm, ha, quietStep, hp]

/-- Settles O4: the agenda's head names the unit, and each clause is that unit's turn in one of its phases. -/
theorem unitTurnRunsDecodedCommand : Obligations.UnitTurnRunsDecodedCommand := by
  unfold Obligations.UnitTurnRunsDecodedCommand
  intro s rest hm
  constructor
  · intro ha
    have hstep : step s = pcuStep { s with agenda := rest } := step_of_agenda hm ha
    rw [hstep]
    exact ⟨fun _ hp hd => pcuStep_legal hp hd, fun _ hp hd => pcuStep_illegal hm hp hd,
      fun hp => pcuStep_idle hm hp⟩
  · intro ha
    have hstep : step s = fsuStep { s with agenda := rest } := step_of_agenda hm ha
    rw [hstep]
    exact ⟨fun _ hp hd => fsuStep_legal hp hd, fun _ hp hd => fsuStep_illegal hm hp hd, fun hp => fsuStep_writing hp,
      fun hp => fsuStep_idle hm hp⟩

/-- Settles O6: the PCU's phase says whose turn it is, and each clause is that unit's turn in one of its phases. -/
theorem emptyAgendaRunsUnits : Obligations.EmptyAgendaRunsUnits := by
  unfold Obligations.EmptyAgendaRunsUnits
  intro s hm ha
  have hpcu (hp : s.phasePcu = .pending) : step s = pcuStep s := step_of_pending_pcu hm ha hp
  have hfsu (hp : s.phasePcu = .idle) : step s = fsuStep s := step_of_idle_pcu hm ha hp
  exact ⟨fun _ hp hd => (hpcu hp).trans (pcuStep_legal hp hd),
    fun _ hp hd => (hpcu hp).trans (pcuStep_illegal hm hp hd),
    fun _ hp hq hd => (hfsu hp).trans (fsuStep_legal hq hd),
    fun _ hp hq hd => (hfsu hp).trans (fsuStep_illegal hm hq hd),
    fun hp hq => (hfsu hp).trans (fsuStep_writing hq),
    fun hp hq => (hfsu hp).trans (fsuStep_idle hm hq)⟩

/-! ### DEC_PIX and ENC_PIX (R112, R113) -/

/-- Settles O17: DEC_PIX has no check, and completes. -/
theorem decPixCompletes : Obligations.DecPixCompletes := by
  unfold Obligations.DecPixCompletes
  exact ⟨decode_encode .decPix, fun s hm => settle_of_none (s := decPix s) hm⟩

/-- Settles O18: ENC_PIX has no check, and completes. -/
theorem encPixCompletes : Obligations.EncPixCompletes := by
  unfold Obligations.EncPixCompletes
  exact ⟨decode_encode .encPix, fun s hm => settle_of_none (s := encPix s) hm⟩

/-- What no PCU command changes (R116). -/
theorem PcuChange.frame {s t : State} (h : PcuChange s t) :
    SamePcuParams s t ∧ SameFsu s t ∧ SameOutside s t ∧ t.latPcu = s.latPcu := by
  obtain ⟨_, _, _, _, _, _, rfl, -⟩ := h
  exact ⟨by constructor <;> rfl, by constructor <;> rfl, by constructor <;> rfl, rfl⟩

/-- Settles O25: beside the frame of every PCU command, each effect reaches one pixel register and no memory. -/
theorem pixelCommandFrame : Obligations.PixelCommandFrame := by
  unfold Obligations.PixelCommandFrame
  rintro i s t (rfl | rfl) h
  · obtain ⟨hparams, hfsu, houtside, hlatch⟩ := (exec_pcu_next rfl h).1.frame
    obtain ⟨rfl, -⟩ := settle_next.1 h
    exact ⟨hparams, hfsu, houtside, hlatch, fun _ => rfl, nofun, fun _ => rfl⟩
  · obtain ⟨hparams, hfsu, houtside, hlatch⟩ := (exec_pcu_next rfl h).1.frame
    obtain ⟨rfl, -⟩ := settle_next.1 h
    exact ⟨hparams, hfsu, houtside, hlatch, nofun, fun _ => rfl, fun _ => rfl⟩

/-! ### What DEC_BUF and ENC_BUF have in common (R114, R115) -/

/-- A buffer command: the checks, then the `need` bytes of PBM from `src` on, made by `f` into `out` bytes at the
destination. `avail` is what the source holds for pixels. -/
def bufferCommand (f : List Byte → List Byte) (src avail need out : Nat) (s : State) : State :=
  match bufferCheck s.pbmSize s.latPcu src avail need out with
  | some e => raise .pcu e s
  | none => convert f src need s.latPcu.dstAddr.toNat s

theorem exec_decBuf_eq (hdr : Bool) (s : State) :
    exec (.decBuf hdr) s = settle (bufferCommand decodeStream (s.latPcu.streamAddr hdr) (s.latPcu.available hdr)
      (2 * s.latPcu.pixels) (3 * s.latPcu.pixels) s) := rfl

theorem exec_encBuf_eq (s : State) :
    exec .encBuf s = settle (bufferCommand encodeStream s.latPcu.srcAddr.toNat s.latPcu.srcLen.toNat
      (3 * s.latPcu.pixels) (2 * s.latPcu.pixels) s) := rfl

/-- The state with `bs` written at the latched destination and the command completed with ECODE 0 (R205). -/
def bufferDone (bs : List Byte) (s : State) : State :=
  endPcu .none 0 0 { s with pbm := memWrite s.pbm s.latPcu.dstAddr.toNat bs }

/-- No error of R200 has code 0. -/
theorem CmdError.code_ne_none (e : CmdError) : e.code ≠ .none := by
  cases e <;> nofun

section
variable {f : List Byte → List Byte} {src avail need out : Nat} {s t : State}

theorem convert_of_read {bs : List Byte} (h : memRead s.pbm src need = .ok bs) :
    convert f src need s.latPcu.dstAddr.toNat s = bufferDone (f bs) s := by
  simp only [convert, h]
  rfl

/-- With its checks passed and a value in every consumed byte, a buffer command completes. -/
theorem settle_bufferCommand_done {bs : List Byte} (hm : s.mfault = none)
    (hcheck : bufferCheck s.pbmSize s.latPcu src avail need out = none) (hread : memRead s.pbm src need = .ok bs) :
    settle (bufferCommand f src avail need out s) = .next (bufferDone (f bs) s) := by
  simp only [bufferCommand, hcheck, convert_of_read hread]
  exact settle_of_none hm

/-- A buffer command that answers a next state starts with no fault recorded, and ends with the first failing check's
error or with the converted bytes written. -/
theorem bufferCommand_next (h : settle (bufferCommand f src avail need out s) = .next t) :
    s.mfault = none ∧
    ((∃ e, bufferCheck s.pbmSize s.latPcu src avail need out = some e ∧ t = raise .pcu e s) ∨
     (bufferCheck s.pbmSize s.latPcu src avail need out = none ∧
      ∃ bs, memRead s.pbm src need = .ok bs ∧ t = bufferDone (f bs) s)) := by
  unfold bufferCommand at h
  split at h
  · next e hcheck =>
    obtain ⟨rfl, hm⟩ := settle_next.1 h
    exact ⟨hm, .inl ⟨e, hcheck, rfl⟩⟩
  · next hcheck =>
    obtain ⟨a, -, hconv⟩ | ⟨bs, hread, hconv⟩ := convert_cases f src need s.latPcu.dstAddr.toNat s
    · rw [hconv] at h
      exact absurd h settle_recordFault_next
    · rw [hconv] at h
      obtain ⟨rfl, hm⟩ := settle_next.1 h
      exact ⟨hm, .inr ⟨hcheck, bs, hread, rfl⟩⟩

/-! #### The frame (R116) -/

/-- A buffer command leaves the pixel registers alone, and every byte of PBM outside its destination. -/
theorem bufferCommand_frame (hf : ∀ bs, bs.length = need → (f bs).length = out)
    (h : settle (bufferCommand f src avail need out s) = .next t) :
    t.pcu.pix565 = s.pcu.pix565 ∧ t.pcu.rgb888 = s.pcu.rgb888 ∧
    ∀ a, a < s.latPcu.dstAddr.toNat ∨ s.latPcu.dstAddr.toNat + out ≤ a → memGet t.pbm a = memGet s.pbm a := by
  obtain ⟨-, ⟨e, -, rfl⟩ | ⟨-, bs, hread, rfl⟩⟩ := bufferCommand_next h
  · exact ⟨rfl, rfl, fun _ _ => rfl⟩
  · refine ⟨rfl, rfl, fun a ha => ?_⟩
    rw [← hf bs (memRead_length hread)] at ha
    exact memGet_memWrite_outside s.pbm ha

/-! #### The bytes looked at (R109, R110, R116) -/

/-- The second outcome is the same fault as the first, or has the same PCU registers and, on success, the same `len`
bytes of PBM from `dst` on. -/
def SameResult (dst len : Nat) (o o' : Host.Outcome State Fault Refusal) : Prop :=
  (∀ r, o = .fault r → o' = .fault r) ∧
  ∀ t, o = .next t → ∃ t', o' = .next t' ∧ t'.pcu = t.pcu ∧
    (t.pcu.status.ecode = .none → ∀ a, dst ≤ a → a < dst + len → memGet t'.pbm a = memGet t.pbm a)

theorem sameResult_settle {dst len : Nat} {u u' : State} (hm : u'.mfault = u.mfault) (hpcu : u'.pcu = u.pcu)
    (hmem : u.mfault = none → u.pcu.status.ecode = .none →
      ∀ a, dst ≤ a → a < dst + len → memGet u'.pbm a = memGet u.pbm a) :
    SameResult dst len (settle u) (settle u') := by
  constructor
  · intro r h
    exact settle_fault.2 (hm.trans (settle_fault.1 h))
  · intro t h
    obtain ⟨rfl, hnone⟩ := settle_next.1 h
    exact ⟨u', settle_of_none (hm.trans hnone), hpcu, hmem hnone⟩

/-- A written byte does not depend on the memory it was written to. -/
theorem memGet_memWrite_inside (m m' : Memory) {a k : Nat} {bs : List Byte} (hlo : a ≤ k) (hhi : k < a + bs.length) :
    memGet (memWrite m a bs) k = memGet (memWrite m' a bs) k := by
  rw [memGet_memWrite, memGet_memWrite, if_pos ⟨hlo, hhi⟩, if_pos ⟨hlo, hhi⟩]

/-- The last part of a buffer command depends on no more than what it reads. -/
theorem convert_sameResult {other : Memory} (hf : ∀ bs, bs.length = need → (f bs).length = out)
    (hother : memRead other src need = memRead s.pbm src need) :
    SameResult s.latPcu.dstAddr.toNat out (settle (convert f src need s.latPcu.dstAddr.toNat s))
      (settle (convert f src need s.latPcu.dstAddr.toNat { s with pbm := other })) := by
  cases hread : memRead s.pbm src need with
  | error a =>
    rw [convert_of_unwritten hread, convert_of_unwritten (hother.trans hread)]
    exact sameResult_settle rfl rfl fun hm => absurd hm (recordFault_ne_none s _)
  | ok bs =>
    have hlen := hf bs (memRead_length hread)
    rw [convert_of_read hread, convert_of_read (s := { s with pbm := other }) (hother.trans hread)]
    exact sameResult_settle rfl rfl fun _ _ a hlo hhi => memGet_memWrite_inside other s.pbm hlo (hlen ▸ hhi)

/-- The checks read no byte of memory, so only what `convert` reads matters. -/
theorem bufferCommand_sameResult {other : Memory} (hf : ∀ bs, bs.length = need → (f bs).length = out)
    (hother : ∀ a, src ≤ a → a < src + need → memGet other a = memGet s.pbm a) :
    SameResult s.latPcu.dstAddr.toNat out (settle (bufferCommand f src avail need out s))
      (settle (bufferCommand f src avail need out { s with pbm := other })) := by
  unfold bufferCommand
  dsimp only
  split
  · next e _ => exact sameResult_settle rfl rfl fun _ hcode => absurd hcode e.code_ne_none
  · exact convert_sameResult hf (memRead_congr fun k hk => hother (src + k) (by omega) (by omega))

/-! #### A larger SRC_LEN (R109) -/

/-- Checks that pass still pass with a larger source inside the memory. -/
theorem bufferCheck_none_of_longer {size avail' : Nat} {c : PcuLatch} {len : Word}
    (h : bufferCheck size c src avail need out = none) (havail : avail ≤ avail')
    (hrange : c.srcAddr.toNat + len.toNat ≤ size) :
    bufferCheck size { c with srcLen := len } src avail' need out = none := by
  unfold bufferCheck at h ⊢
  split_ifs at h with hdim hsrc hsmall hdst hover
  have hdim' : ¬ PcuLatch.badDimensions { c with srcLen := len } = true := hdim
  have hsrc' : inRange size c.srcAddr.toNat len.toNat = true := inRange_iff.2 (.inr hrange)
  rw [if_neg hdim', if_neg (by simp [hsrc']), if_neg (by omega), if_neg hdst, if_neg hover]

theorem bufferCommand_of_longer {avail' : Nat} {len : Word}
    (h : settle (bufferCommand f src avail need out s) = .next t) (hok : t.pcu.status.ecode = .none)
    (havail : avail ≤ avail') (hrange : s.latPcu.srcAddr.toNat + len.toNat ≤ s.pbmSize) :
    settle (bufferCommand f src avail' need out { s with latPcu := { s.latPcu with srcLen := len } }) =
      .next { t with latPcu := { s.latPcu with srcLen := len } } := by
  obtain ⟨hm, ⟨e, -, rfl⟩ | ⟨hcheck, bs, hread, rfl⟩⟩ := bufferCommand_next h
  · exact absurd hok e.code_ne_none
  · have hcheck' := bufferCheck_none_of_longer (len := len) hcheck havail hrange
    exact settle_bufferCommand_done (s := { s with latPcu := { s.latPcu with srcLen := len } }) hm hcheck' hread

end

/-! ### DEC_BUF and ENC_BUF (R114, R115) -/

/-- Settles O19: the hypotheses are the conditions under which every check passes. -/
theorem decBufCompletes : Obligations.DecBufCompletes := by
  unfold Obligations.DecBufCompletes
  rintro hdr s bytes n src dst hm rfl hn hmax rfl rfl hsrc hlen hdst hapart hread
  have hpos : 0 < s.latPcu.pixels := hn
  have havail : 2 * s.latPcu.pixels ≤ s.latPcu.available hdr := Nat.le_sub_of_add_le' hlen
  exact settle_bufferCommand_done hm
    ((bufferCheck_none (by omega) (by omega)).2 ⟨hpos.ne', hmax, .inr hsrc, havail, hdst, hapart⟩) hread

/-- Settles O20: the hypotheses are the conditions under which every check passes. -/
theorem encBufCompletes : Obligations.EncBufCompletes := by
  unfold Obligations.EncBufCompletes
  rintro s bytes n src dst hm rfl hn hmax rfl rfl hsrc hlen hdst hapart hread
  have hpos : 0 < s.latPcu.pixels := hn
  exact settle_bufferCommand_done hm
    ((bufferCheck_none (by omega) (by omega)).2 ⟨hpos.ne', hmax, .inr hsrc, hlen, hdst, hapart⟩) hread

/-- Settles O26: beside the frame of every PCU command, the streams make exactly the `width` bytes. -/
theorem bufferCommandFrame : Obligations.BufferCommandFrame := by
  unfold Obligations.BufferCommandFrame
  intro i s t width hi h
  have hu : i.unit = .pcu := by obtain ⟨⟨hdr, rfl⟩, -⟩ | ⟨rfl, -⟩ := hi <;> rfl
  obtain ⟨hparams, hfsu, houtside, hlatch⟩ := (exec_pcu_next hu h).1.frame
  refine ⟨hparams, hfsu, houtside, hlatch, ?_⟩
  obtain ⟨⟨hdr, rfl⟩, rfl⟩ | ⟨rfl, rfl⟩ := hi
  · rw [exec_decBuf_eq] at h
    exact bufferCommand_frame (fun _ => decodeStream_length) h
  · rw [exec_encBuf_eq] at h
    exact bufferCommand_frame (fun _ => encodeStream_length) h

/-- Settles O27: both are buffer commands, which look at no byte but those `convert` reads. -/
theorem bufferCommandsReadOnlyPixelBytes : Obligations.BufferCommandsReadOnlyPixelBytes := by
  unfold Obligations.BufferCommandsReadOnlyPixelBytes
  rintro i s other src n dst len hi rfl hother
  obtain ⟨hdr, rfl, rfl, rfl, rfl⟩ | ⟨rfl, rfl, rfl, rfl⟩ := hi
  · exact bufferCommand_sameResult (fun _ => decodeStream_length) hother
  · exact bufferCommand_sameResult (fun _ => encodeStream_length) hother

/-- Settles O28: a larger SRC_LEN leaves no less for pixels, and nothing but the checks looks at it. -/
theorem trailingSourceBytesAreIgnored : Obligations.TrailingSourceBytesAreIgnored := by
  unfold Obligations.TrailingSourceBytesAreIgnored
  rintro i s t len (⟨hdr, rfl⟩ | rfl) h hok hlonger hrange
  · rw [exec_decBuf_eq] at h
    exact bufferCommand_of_longer h hok (Nat.sub_le_sub_right hlonger _) hrange
  · rw [exec_encBuf_eq] at h
    exact bufferCommand_of_longer h hok hlonger hrange

end Sys2Proof.Machine
end

section
/-! PROOFS (41_frame_serializer.md). The FSU's two commands: the frame and its checks, BUILD, each step of SEND and what
it leaves unchanged, and the session invariant, which every agent's step keeps. -/

namespace Sys2Proof.Machine

/-! ### The frame (R140 to R144) -/

/-- Settles O29: a byte of the path is one that stands at some position of it. -/
theorem validPathRefusesSpaceAndNewline : Obligations.ValidPathRefusesSpaceAndNewline := by
  unfold Obligations.ValidPathRefusesSpaceAndNewline
  refine ⟨fun p => ?_, rfl⟩
  rw [validPath_iff, List.forall_mem_iff_getElem]
  refine forall₂_congr fun i hi => ?_
  simp [List.getElem?_eq_getElem hi]

/-- The four bytes of a little-endian word, weighted by their places, are the word (R10). -/
theorem word_toNat_of_bytes (v : Word) :
    (v.extractLsb 7 0).toNat + 256 * (v.extractLsb 15 8).toNat + 65536 * (v.extractLsb 23 16).toNat +
      16777216 * (v.extractLsb 31 24).toNat = v.toNat := by
  have hv : v.toNat < 4294967296 := v.isLt
  simp only [BitVec.extractLsb_toNat, Nat.shiftRight_eq_div_pow]
  omega

/-- A frame is its path, and after it the terminator, the length field and the payload (R142). -/
theorem frame_eq_append (p : List Byte) (m : Word) (q : List Byte) :
    frame p m q = p ++ 0x0A#8 :: (le32 m ++ q) := by
  simp [frame, Config.pathTerm]

theorem drop_frame (p : List Byte) (m : Word) (q : List Byte) (k : Nat) :
    (frame p m q).drop (p.length + k) = (0x0A#8 :: (le32 m ++ q)).drop k := by
  rw [frame_eq_append, List.drop_append, List.drop_eq_nil_of_le (by omega), Nat.add_sub_cancel_left, List.nil_append]

/-- Settles O30: the frame is taken apart after its path. -/
theorem frameLayout : Obligations.FrameLayout := by
  unfold Obligations.FrameLayout
  intro p q m hlen
  refine ⟨frame_length p m q, ?_, ?_, ?_, ?_, fun hvalid i hi => ?_⟩
  · rw [frame_eq_append, List.take_left]
  · simp [frame_eq_append]
  · rw [drop_frame]
    exact ⟨_, _, _, _, rfl, (word_toNat_of_bytes m).trans hlen.symm⟩
  · rw [drop_frame]
    rfl
  · rw [frame_eq_append, List.getElem?_append_left hi]
    exact ((validPathRefusesSpaceAndNewline.1 p).1 hvalid i hi).2

/-! ### BUILD (R146) -/

/-- The state with the frame at the latched address, its length in FSU_FRM_LEN, and BUILD completed with ECODE 0. -/
def buildDone (path payload : List Byte) (s : State) : State :=
  endFsu .none
    { s with
      fbm := memWrite s.fbm s.latFsu.frmAddr.toNat (frame path s.latFsu.payLen payload)
      fsu := { s.fsu with frmLen := BitVec.ofNat 32 s.latFsu.builtLength } }

/-- BUILD that answers a next state starts with no fault recorded, and ends with an error and nothing written, or with
the frame of a path and a payload of the latched lengths. -/
theorem exec_build_cases {s t : State} (h : exec .build s = .next t) :
    s.mfault = none ∧
    ((∃ e, t = raise .fsu e s) ∨
     ∃ path payload, path.length = s.latFsu.pathLen.toNat ∧ payload.length = s.latFsu.payLen.toNat ∧
       t = buildDone path payload s) := by
  have hraise {e : CmdError} (h : settle (raise .fsu e s) = .next t) :
      s.mfault = none ∧ ∃ e, t = raise .fsu e s := by
    obtain ⟨rfl, hm⟩ := settle_next.1 h
    exact ⟨hm, e, rfl⟩
  rw [exec_build] at h
  unfold buildFrame at h
  dsimp only at h
  split at h
  · exact (hraise h).imp_right .inl
  split at h
  · exact (hraise h).imp_right .inl
  split at h
  · exact absurd h settle_recordFault_next
  next path hpath =>
  split at h
  · exact (hraise h).imp_right .inl
  split at h
  · exact (hraise h).imp_right .inl
  split at h
  · exact (hraise h).imp_right .inl
  split at h
  · exact absurd h settle_recordFault_next
  next payload hpayload =>
  obtain ⟨rfl, hm⟩ := settle_next.1 h
  exact ⟨hm, .inr ⟨path, payload, memRead_length hpath, memRead_length hpayload, rfl⟩⟩

/-- Settles O31: the hypotheses are the conditions under which every check passes. -/
theorem buildCompletes : Obligations.BuildCompletes := by
  unfold Obligations.BuildCompletes
  rintro s path payload P n Q m F hm rfl rfl rfl rfl rfl hpath hpay hread hbytes hframe hapartPath hapartPay hpayload
  have hvalid : validPath path = true := validPath_iff.2 hbytes
  have hframeIn : inRange s.fbmSize s.latFsu.frmAddr.toNat s.latFsu.builtLength = true := inRange_iff.2 (.inr hframe)
  have hoverPath : overlaps s.latFsu.frmAddr.toNat s.latFsu.builtLength s.latFsu.pathAddr.toNat
      s.latFsu.pathLen.toNat = false := overlaps_false_iff.2 (.inr hapartPath)
  have hoverPay : overlaps s.latFsu.frmAddr.toNat s.latFsu.builtLength s.latFsu.payAddr.toNat
      s.latFsu.payLen.toNat = false := overlaps_false_iff.2 (.inr hapartPay)
  rw [exec_build]
  simp only [buildFrame, inRange_iff.2 hpath, inRange_iff.2 hpay, hread, hvalid, hframeIn, hoverPath, hoverPay,
    hpayload]
  exact settle_of_none hm

/-- Settles O32: an error writes nothing, and a frame has the length of its footprint. -/
theorem buildFrame_frame : Obligations.BuildFrame := by
  unfold Obligations.BuildFrame
  intro s t h
  obtain ⟨-, ⟨e, rfl⟩ | ⟨path, payload, hpath, hpayload, rfl⟩⟩ := exec_build_cases h
  · exact ⟨by constructor <;> rfl, by constructor <;> rfl, by constructor <;> rfl, rfl, rfl, rfl, rfl, rfl,
      fun _ _ => rfl⟩
  · refine ⟨by constructor <;> rfl, by constructor <;> rfl, by constructor <;> rfl, rfl, rfl, rfl, rfl, rfl,
      fun a ha => ?_⟩
    have hlen : (frame path s.latFsu.payLen payload).length = s.latFsu.builtLength := by
      rw [frame_length, hpath, hpayload, FsuLatch.builtLength]
    rw [← hlen] at ha
    exact memGet_memWrite_outside s.fbm ha

/-! ### The steps of SEND (R150 to R155, R167) -/

section
variable {s t : State}

theorem exec_send_start (hp : s.phaseFsu = .pending) : exec .send s = settle (sendStart s) := by
  rw [exec_send, sendStep, hp]

theorem exec_send_write (hp : s.phaseFsu = .writing) (hlt : s.fsu.txSent.toNat < s.latFsu.frmLen.toNat) :
    exec .send s = settle (sendWriteWith s.writeAnswer s.takeWriteAnswer) := by
  rw [exec_send, sendStep, hp]
  simp only [sendContinue, if_pos hlt]

theorem exec_send_flush (hp : s.phaseFsu = .writing) (hdone : ¬ s.fsu.txSent.toNat < s.latFsu.frmLen.toNat) :
    exec .send s = settle (sendFlushWith s.flushAnswer s.takeFlushAnswer) := by
  rw [exec_send, sendStep, hp]
  simp only [sendContinue, if_neg hdone]

/-- The state with the session opened and SEND in its loop (R150). -/
def sendOpened (s : State) : State :=
  { s with txTrace := s.txTrace ++ [.txOpen], txOpen := true, phaseFsu := .writing }

/-- With its range in FBM, SEND opens the session. -/
theorem exec_send_opens (hm : s.mfault = none) (hp : s.phaseFsu = .pending)
    (hr : inRange s.fbmSize s.latFsu.frmAddr.toNat s.latFsu.frmLen.toNat = true) :
    exec .send s = .next (sendOpened s) := by
  rw [exec_send_start hp]
  simp only [sendStart, hr]
  exact settle_of_none hm

/-- Settles O33: the two clauses are the two answers of the range test. -/
theorem sendStarts : Obligations.SendStarts := by
  unfold Obligations.SendStarts
  rintro s A L hm hp rfl rfl
  refine ⟨fun hlen hout => ?_, fun hin => exec_send_opens hm hp (inRange_iff.2 hin)⟩
  have hr : inRange s.fbmSize s.latFsu.frmAddr.toNat s.latFsu.frmLen.toNat = false := by
    rw [← Bool.not_eq_true, inRange_iff]
    omega
  rw [exec_send_start hp]
  simp only [sendStart, hr]
  exact settle_of_none hm

theorem sendWriteWith_of_read {answer : WriteAnswer} {offered : List Byte}
    (h : memRead s.fbm (s.latFsu.frmAddr.toNat + s.fsu.txSent.toNat)
      (s.latFsu.frmLen.toNat - s.fsu.txSent.toNat) = .ok offered) :
    sendWriteWith answer s = sendAccept offered.length answer
      { s with
        txTrace := s.txTrace ++ [.txWrite offered answer]
        fsu := { s.fsu with txCalls := s.fsu.txCalls + 1 } } := by
  simp only [sendWriteWith, h]
  rfl

/-- A count of 1 up to what was offered moves the offset on (R152). -/
theorem sendAccept_of_le {len k : Nat} (hpos : 1 ≤ k) (hk : k ≤ len) :
    sendAccept len (.count k) s =
      { s with fsu := { s.fsu with txSent := BitVec.ofNat 32 (s.fsu.txSent.toNat + k) } } := by
  obtain ⟨j, rfl⟩ := Nat.exists_eq_add_of_le' hpos
  exact if_pos hk

/-- A count above what was offered is a model fault (R161). -/
theorem sendAccept_of_gt {len k : Nat} (hk : len < k) :
    sendAccept len (.count k) s = s.recordFault .transportOverrun := by
  obtain ⟨j, rfl⟩ := Nat.exists_eq_add_of_lt hk
  exact if_neg (by omega)

theorem failClose_eq :
    failClose s =
      endFsu .transportWriteFailed { s with txTrace := s.txTrace ++ [.txClose], txOpen := false } := rfl

/-- An answer that takes no byte closes the session and ends SEND (R153). -/
theorem sendAccept_of_none {len : Nat} {answer : WriteAnswer} (h : answer = .fail ∨ answer = .count 0) :
    sendAccept len answer s = failClose s := by
  obtain rfl | rfl := h <;> rfl

end

/-- Settles O34: the write step offers the remainder, and each clause is one kind of answer. -/
theorem sendWriteStep : Obligations.SendWriteStep := by
  unfold Obligations.SendWriteStep
  rintro s offered a A L off hm hp rfl rfl rfl hlt hread rfl
  have hlen := memRead_length hread
  have hm' : s.takeWriteAnswer.mfault = none := (takeWriteAnswer_mfault s).trans hm
  have hstep := exec_send_write hp hlt
  rw [sendWriteWith_of_read (by simpa using hread), takeWriteAnswer_txTrace, takeWriteAnswer_fsu] at hstep
  refine ⟨fun k ha hpos hk => ?_, fun ha => ?_, fun k ha hk => ?_⟩
  · rw [hstep, ha, sendAccept_of_le hpos (hlen ▸ hk)]
    exact settle_of_none hm'
  · rw [hstep, sendAccept_of_none ha, failClose_eq, List.append_assoc]
    exact settle_of_none hm'
  · rw [hstep, ha, sendAccept_of_gt (hlen ▸ hk)]
    exact settle_recordFault _ hm'

/-- The state with the flush answered by `answer`, the session closed and SEND ended as that answer says (R154). -/
def sendEnded (answer : FlushAnswer) (s : State) : State :=
  endFsu (flushCode answer) { s with txTrace := s.txTrace ++ [.txFlush answer, .txClose], txOpen := false }

theorem sendFlushWith_eq (answer : FlushAnswer) (s : State) : sendFlushWith answer s = sendEnded answer s := by
  rw [sendEnded, List.append_cons]
  cases answer <;> rfl

/-- With every byte of the frame taken, SEND ends in its flush step. -/
theorem exec_send_ends {s : State} (hm : s.mfault = none) (hp : s.phaseFsu = .writing)
    (hdone : ¬ s.fsu.txSent.toNat < s.latFsu.frmLen.toNat) :
    exec .send s = .next (sendEnded s.flushAnswer s.takeFlushAnswer) := by
  rw [exec_send_flush hp hdone, sendFlushWith_eq]
  exact settle_of_none ((takeFlushAnswer_mfault s).trans hm)

/-- Settles O35: the flush step with each of its two answers. -/
theorem sendFlushStep : Obligations.SendFlushStep := by
  unfold Obligations.SendFlushStep
  intro s hm hp hsent
  have hends := exec_send_ends hm hp (by rw [hsent]; exact lt_irrefl _)
  rw [sendEnded, takeFlushAnswer_txTrace] at hends
  constructor
  · intro ha
    rwa [ha] at hends
  · intro ha
    rwa [ha] at hends

/-- Settles O36: a range of length 0 is inside FBM, and offset 0 is its end, so the flush follows the start. -/
theorem emptySendOnlyFlushes : Obligations.EmptySendOnlyFlushes := by
  unfold Obligations.EmptySendOnlyFlushes
  intro s hm hp hlen hsent hcalls
  have hopens := exec_send_opens hm hp (inRange_iff.2 (.inl (by simp [hlen])))
  have hends := exec_send_ends (s := sendOpened s) hm rfl (by simp [sendOpened, hlen])
  refine ⟨sendOpened s, _, (sendOpened s).flushAnswer, hopens, hends, ?_, rfl, rfl, ?_, ?_, rfl⟩
  · simp [sendEnded, endFsu, sendOpened]
  · simpa [sendEnded, endFsu, sendOpened] using hcalls
  · simpa [sendEnded, endFsu, sendOpened] using hsent

/-! ### What a step of SEND can be -/

/-- The steps of SEND that answer a next state: outside its loop the range error or the open session, in its loop a
write attempt that took bytes, one that failed, or the flush (R150 to R154). -/
inductive SendChange (s : State) : State → Prop
  | refused (hp : s.phaseFsu ≠ .writing)
      (hr : inRange s.fbmSize s.latFsu.frmAddr.toNat s.latFsu.frmLen.toNat = false) :
      SendChange s (raise .fsu .rangeError s)
  | opened (hp : s.phaseFsu ≠ .writing)
      (hr : inRange s.fbmSize s.latFsu.frmAddr.toNat s.latFsu.frmLen.toNat = true) : SendChange s (sendOpened s)
  | accepted (hp : s.phaseFsu = .writing) (offered : List Byte) (k : Nat) (ha : s.writeAnswer = .count (k + 1))
      (hread : memRead s.fbm (s.latFsu.frmAddr.toNat + s.fsu.txSent.toNat)
        (s.latFsu.frmLen.toNat - s.fsu.txSent.toNat) = .ok offered)
      (hk : k + 1 ≤ s.latFsu.frmLen.toNat - s.fsu.txSent.toNat) :
      SendChange s { s.takeWriteAnswer with
        txTrace := s.txTrace ++ [.txWrite offered (.count (k + 1))]
        fsu := { s.fsu with
          txCalls := s.fsu.txCalls + 1
          txSent := BitVec.ofNat 32 (s.fsu.txSent.toNat + (k + 1)) } }
  | failed (hp : s.phaseFsu = .writing) (offered : List Byte)
      (ha : s.writeAnswer = .fail ∨ s.writeAnswer = .count 0)
      (hread : memRead s.fbm (s.latFsu.frmAddr.toNat + s.fsu.txSent.toNat)
        (s.latFsu.frmLen.toNat - s.fsu.txSent.toNat) = .ok offered) :
      SendChange s { s.takeWriteAnswer with
        txTrace := s.txTrace ++ [.txWrite offered s.writeAnswer] ++ [.txClose]
        txOpen := false
        phaseFsu := .idle
        fsu := { s.fsu with
          status := s.fsu.status.completed .transportWriteFailed
          txCalls := s.fsu.txCalls + 1 } }
  | flushed (hp : s.phaseFsu = .writing) (hdone : ¬ s.fsu.txSent.toNat < s.latFsu.frmLen.toNat) :
      SendChange s { s.takeFlushAnswer with
        txTrace := s.txTrace ++ [.txFlush s.flushAnswer] ++ [.txClose]
        txOpen := false
        phaseFsu := .idle
        fsu := { s.fsu with status := s.fsu.status.completed (flushCode s.flushAnswer) } }

theorem sendStart_change {s t : State} (hp : s.phaseFsu ≠ .writing) (h : settle (sendStart s) = .next t) :
    SendChange s t := by
  obtain ⟨-, ⟨hr, rfl⟩ | ⟨hr, rfl⟩⟩ := sendStart_next h
  · exact .refused hp hr
  · exact .opened hp hr

theorem sendContinue_change {s t : State} (hp : s.phaseFsu = .writing) (h : settle (sendContinue s) = .next t) :
    SendChange s t := by
  unfold sendContinue at h
  split at h
  · obtain ⟨-, offered, hread, hcases⟩ := sendWriteWith_next h
    rw [takeWriteAnswer_fbm, takeWriteAnswer_fsu, takeWriteAnswer_latFsu] at hread
    obtain ⟨k, ha, hk, rfl⟩ | ⟨ha, rfl⟩ := hcases
    · rw [takeWriteAnswer_fsu, takeWriteAnswer_latFsu] at hk
      rw [ha, takeWriteAnswer_txTrace, takeWriteAnswer_fsu]
      exact .accepted hp offered k ha hread hk
    · rw [takeWriteAnswer_txTrace, takeWriteAnswer_fsu]
      exact .failed hp offered ha hread
  · next hdone =>
    obtain ⟨-, rfl⟩ := sendFlushWith_next h
    rw [takeFlushAnswer_txTrace, takeFlushAnswer_fsu]
    exact .flushed hp hdone

/-- A step of SEND that answers a next state is one of the five. -/
theorem exec_send_change {s t : State} (h : exec .send s = .next t) : SendChange s t := by
  rw [exec_send, sendStep] at h
  split at h
  · next hp => exact sendContinue_change hp h
  · next hp => exact sendStart_change (by simp [hp]) h
  · next hp => exact sendStart_change (by simp [hp]) h

/-- SEND writes no parameter register and leaves OVR alone. -/
theorem SendChange.params {s t : State} (h : SendChange s t) : SameFsuParams s t := by
  cases h <;> constructor <;> rfl

/-- Settles O37: the frame of SEND's steps, with the registers of its own bank and the trace. -/
theorem sendFrame : Obligations.SendFrame := by
  unfold Obligations.SendFrame
  intro s t h
  obtain ⟨frame, -⟩ := exec_send_next h
  obtain ⟨more, htrace⟩ := exec_send_trace h
  exact ⟨⟨frame.pcu, frame.phasePcu, frame.latPcu, frame.pbm⟩, (exec_send_change h).params, frame.frmLen,
    frame.latFsu, frame.pbmSize, frame.fbmSize, frame.agenda, frame.hostLog, frame.mfault,
    fun a => by rw [frame.fbm], more, htrace.symm⟩

/-- Settles O38: only the flush step ends SEND with ECODE 0; the offset is then the frame's length, and the flush and
the close take no byte. -/
theorem successfulSendDeliversFrame : Obligations.SuccessfulSendDeliversFrame := by
  unfold Obligations.SuccessfulSendDeliversFrame
  intro s t hi hs hp h hidle hok
  cases exec_send_change h with
  | refused hp' _ | opened hp' _ => exact absurd hp hp'
  | accepted => simp [hp] at hidle
  | failed => cases hok
  | flushed _ hdone =>
    have hall : s.fsu.txSent.toNat = s.latFsu.frmLen.toNat :=
      le_antisymm (hi.fsu.writing_offset hp).2 (not_lt.1 hdone)
    simp only [takeFlushAnswer_fbm, sessionBytes_snoc, takenNext, ← hall]
    exact hs.taken hp

/-! ### The session invariant (R149, R152, R159) -/

theorem portPhase_append {trace : List TxEvent} {e : TxEvent} {p q : PortPhase} (h : portPhase trace = some p)
    (he : portNext p e = some q) : portPhase (trace ++ [e]) = some q := by
  rw [portPhase_snoc, h]
  exact he

/-- All that the session invariant reads of a state. -/
def State.sessionView (s : State) : Bool × List TxEvent × FsuPhase × FsuLatch × Word × Memory :=
  (s.txOpen, s.txTrace, s.phaseFsu, s.latFsu, s.fsu.txSent, s.fbm)

section
variable {s t : State}

theorem State.SessionInv.congr (hs : s.SessionInv) (h : t.sessionView = s.sessionView) : t.SessionInv := by
  simp only [State.sessionView, Prod.mk.injEq] at h
  obtain ⟨hopen, htrace, hphase, hlatch, hsent, hfbm⟩ := h
  obtain ⟨hport, htaken⟩ := hs
  constructor <;> simpa only [hopen, htrace, hphase, hlatch, hsent, hfbm]

/-- Outside a SEND's loop, with the session closed, only the trace is asked for. -/
theorem sessionInv_of_closed (hp : t.phaseFsu ≠ .writing) (hopen : t.txOpen = false)
    (h : portPhase t.txTrace = some .closed) : t.SessionInv :=
  ⟨by simp [hopen, h], fun hw => absurd hw hp⟩

theorem State.SessionInv.port_opened (hs : s.SessionInv) (h : s.txOpen = true) :
    portPhase s.txTrace = some .opened := by
  simpa [h] using hs.discipline

theorem State.SessionInv.port_closed (hs : s.SessionInv) (h : s.txOpen = false) :
    portPhase s.txTrace = some .closed := by
  simpa [h] using hs.discipline

/-! ### The units' turns -/

theorem pcuStep_sessionInv (hs : s.SessionInv) (h : pcuStep s = .next t) : t.SessionInv := by
  obtain rfl | ⟨_, _, _, _, _, _, rfl, -⟩ := pcuStep_change h
  · exact hs
  · exact hs.congr rfl

/-- BUILD emits no port event, and runs outside a SEND's loop (R147). -/
theorem BuildChange.sessionInv (hi : s.FsuInv) (hs : s.SessionInv) (hp : s.phaseFsu = .pending)
    (h : BuildChange s t) : t.SessionInv := by
  obtain ⟨_, _, _, rfl, -⟩ := h
  have hclosed : s.txOpen = false := hi.closed (by simp [hp])
  exact sessionInv_of_closed nofun hclosed (hs.port_closed hclosed)

/-- What the transport has taken with one more attempt is the frame's bytes up to the new offset: those taken before,
and the first `k` of the rest of the frame (R152, R159). -/
theorem memRead_taken {m : Memory} {a sent len k : Nat} {taken offered : List Byte}
    (htaken : memRead m a sent = .ok taken) (hread : memRead m (a + sent) (len - sent) = .ok offered)
    (hk : k ≤ len - sent) : memRead m a (sent + k) = .ok (taken ++ offered.take k) :=
  memRead_append htaken (memRead_take hread hk)

/-- Each step of SEND moves the port as the session discipline asks, and a write attempt adds to the bytes taken what it
adds to the offset. -/
theorem SendChange.sessionInv (hi : s.FsuInv) (hs : s.SessionInv)
    (hphase : s.phaseFsu = .pending ∨ s.phaseFsu = .writing) (h : SendChange s t) : t.SessionInv := by
  have hport (hp : s.phaseFsu = .writing) : portPhase s.txTrace = some .opened :=
    hs.port_opened (hi.open_iff_writing.2 hp)
  cases h with
  | refused hp _ =>
    exact sessionInv_of_closed nofun (hi.closed hp) (hs.port_closed (hi.closed hp))
  | opened hp _ =>
    obtain ⟨hsent, -⟩ := hi.pending_zero (hphase.resolve_right hp)
    refine ⟨portPhase_append (hs.port_closed (hi.closed hp)) rfl, fun _ => ?_⟩
    simp only [sendOpened, hsent, sessionBytes_snoc, takenNext]
    rfl
  | accepted hp offered k _ hread hk =>
    have hnew : s.fsu.txSent.toNat + (k + 1) < 2 ^ 32 := by
      have hoff := (hi.writing_offset hp).2
      have hlen := s.latFsu.frmLen.isLt
      omega
    refine ⟨?_, fun _ => ?_⟩
    · simp only [takeWriteAnswer_txOpen, hi.open_iff_writing.2 hp]
      exact portPhase_append (hport hp) rfl
    · simp only [takeWriteAnswer_fbm, takeWriteAnswer_latFsu, sessionBytes_snoc, takenNext, BitVec.toNat_ofNat,
        Nat.mod_eq_of_lt hnew]
      exact memRead_taken (hs.taken hp) hread hk
  | failed hp _ _ _ | flushed hp _ =>
    exact sessionInv_of_closed nofun rfl (portPhase_append (portPhase_append (hport hp) rfl) rfl)

theorem fsuStep_sessionInv (hi : s.FsuInv) (hs : s.SessionInv) (h : fsuStep s = .next t) : t.SessionInv := by
  obtain rfl | ⟨hp, hc⟩ | ⟨hp, hsend⟩ := fsuStep_change h
  · exact hs
  · exact hc.sessionInv hi hs hp
  · exact (exec_send_change hsend).sessionInv hi hs (hp.imp_left And.left)

/-! ### The host and reset -/

theorem writeCmd_sessionInv (u : UnitId) (w : Word) (hs : s.SessionInv) : (writeCmd u w s).SessionInv := by
  unfold writeCmd
  split
  · cases u <;> exact hs.congr rfl
  · cases u with
    | pcu => exact hs.congr rfl
    | fsu => exact ⟨hs.discipline, nofun⟩

/-- Of the registers only FSU_CMD reaches what the session invariant reads: its issue leaves the loop's clause empty. -/
theorem writeReg_sessionInv (r : Reg) (v : Word) (hs : s.SessionInv) : (writeReg r v s).SessionInv := by
  cases r with
  | pcuCmd | fsuCmd => exact writeCmd_sessionInv _ v hs
  | _ => exact hs.congr rfl

/-- A byte of FBM that is no hazard lies outside the frame of the SEND in its loop (R241). -/
theorem not_mem_frame_of_no_hazard {a : Nat} (hi : s.FsuInv) (hp : s.phaseFsu = .writing) (ha : a < s.fbmSize)
    (h : s.hazard .fsu a = false) :
    ¬ (s.latFsu.frmAddr.toNat ≤ a ∧ a < s.latFsu.frmAddr.toNat + s.latFsu.frmLen.toNat) := by
  have hbusy : s.fsu.status.busy = true := hi.busy_iff_active.2 (by simp [hp])
  have hfoot : s.footprint .fsu = [(s.latFsu.frmAddr.toNat, s.latFsu.frmLen.toNat)] :=
    fsuFootprint_send (hi.writing_send hp)
  have hsize : a < s.bufSize UnitId.fsu.buf := ha
  rw [← inRanges_singleton, ← hfoot]
  simpa [State.hazard, State.status, hbusy, hsize] using h

/-- A host write of a byte that is no hazard changes no byte that the transport has taken. -/
theorem setBuf_memSet_sessionInv {u : UnitId} {a : Nat} (b : Byte) (hi : s.FsuInv) (hs : s.SessionInv)
    (ha : a < s.bufSize u.buf) (hz : s.hazard u a = false) :
    (s.setBuf u.buf (memSet (s.buf u.buf) a b)).SessionInv := by
  cases u with
  | pcu => exact hs.congr rfl
  | fsu =>
    refine ⟨hs.discipline, fun (hp : s.phaseFsu = .writing) => ?_⟩
    have hout := not_mem_frame_of_no_hazard hi hp ha hz
    have hoff := (hi.writing_offset hp).2
    have hkept : memRead (memSet s.fbm a b) s.latFsu.frmAddr.toNat s.fsu.txSent.toNat =
        memRead s.fbm s.latFsu.frmAddr.toNat s.fsu.txSent.toNat :=
      memRead_congr fun i hlt => memGet_memSet_other s.fbm b (by omega)
    exact hkept.trans (hs.taken hp)

theorem hostStep_sessionInv {tr : Transaction} (hi : s.FsuInv) (hs : s.SessionInv)
    (h : settle (hostStep tr s) = .next t) : t.SessionInv := by
  cases tr with
  | rd off =>
    obtain ⟨-, -, rfl⟩ := hostRd_next h
    exact hs.congr rfl
  | wr off v =>
    obtain ⟨-, ⟨r, -, -, rfl⟩ | ⟨-, rfl⟩⟩ := hostWr_next h
    · exact writeReg_sessionInv r v hs
    · exact hs
  | bmr u addr =>
    obtain ⟨-, b, rfl⟩ := hostBmr_next h
    exact hs.congr rfl
  | bmw u addr b =>
    obtain ⟨-, rfl⟩ | ⟨ha, hz, rfl⟩ := hostBmw_next h
    · exact hs
    · exact setBuf_memSet_sessionInv b hi hs ha hz

/-- Reset closes an open session (R233). -/
theorem resetBlock_sessionInv (hs : s.SessionInv) : (resetBlock s).SessionInv := by
  refine sessionInv_of_closed nofun (resetBlock_txOpen s) ?_
  rw [resetBlock_txTrace]
  split
  · next hopen => exact portPhase_append (hs.port_opened hopen) rfl
  · next hclosed => exact hs.port_closed (by simpa using hclosed)

/-! ### Every step -/

theorem agentStep_sessionInv {a : AgentStep} (hi : s.FsuInv) (hs : s.SessionInv) (h : agentStep a s = .next t) :
    t.SessionInv := by
  cases a with
  | host tr => exact hostStep_sessionInv hi hs h
  | pcu => exact pcuStep_sessionInv hs h
  | fsu => exact fsuStep_sessionInv hi hs h
  | reset =>
    obtain ⟨rfl, -⟩ := settle_next.1 h
    exact resetBlock_sessionInv hs

end

/-- Settles O52: the agenda is in no part of either invariant, and each agent's step keeps the session's. -/
theorem stepKeepsSession : Obligations.StepKeepsSession := by
  unfold Obligations.StepKeepsSession
  intro s t hi hs h
  obtain ⟨-, ⟨-, hq⟩ | ⟨a, rest, -, ha⟩⟩ := step_next h
  · obtain ⟨-, hp⟩ | ⟨-, hf⟩ := quietStep_next hq
    · exact pcuStep_sessionInv hs hp
    · exact fsuStep_sessionInv hi.fsu hs hf
  · have hrest : State.FsuInv { s with agenda := rest } := hi.fsu.congr rfl
    exact agentStep_sessionInv hrest (hs.congr rfl) ha

end Sys2Proof.Machine
end

section
/-! PROOFS (42_host_port.md). The host's transactions: what each register offset reads and takes, a write of a CMD
register, the buffer accesses, what a transaction on one unit leaves of the other and of a running command, and the
word placed for the next step. -/

namespace Sys2Proof.Machine

/-! ### The register map (R24, R26) -/

/-- Where the map has no register, the offset is none of the registers' (R24, R26). -/
theorem regAt_eq_none_iff {off : Nat} : regAt off = none ↔
    off ≠ 0x00 ∧ off ≠ 0x04 ∧ off ≠ 0x08 ∧ off ≠ 0x0C ∧ off ≠ 0x10 ∧ off ≠ 0x14 ∧ off ≠ 0x18 ∧ off ≠ 0x1C ∧
    off ≠ 0x20 ∧ off ≠ 0x24 ∧ off ≠ 0x28 ∧ off ≠ 0x40 ∧ off ≠ 0x44 ∧ off ≠ 0x48 ∧ off ≠ 0x4C ∧ off ≠ 0x50 ∧
    off ≠ 0x54 ∧ off ≠ 0x58 ∧ off ≠ 0x5C ∧ off ≠ 0x60 ∧ off ≠ 0x64 := by
  simp [regAt, allRegs, Reg.offset, @eq_comm Nat off]

theorem readOffset_offset (r : Reg) (s : State) : s.readOffset r.offset = s.readReg r := by
  simp [State.readOffset, regAt_offset]

/-- A read where no register is returns 0 (R26). -/
theorem readOffset_unmapped {off : Nat} (h : regAt off = none) (s : State) : s.readOffset off = 0 := by
  simp [State.readOffset, h]

/-- Every register lies at a multiple of 4 (R24). -/
theorem offset_aligned (r : Reg) : r.offset % 4 = 0 := by
  cases r <;> rfl

theorem hostWr_offset (r : Reg) (v : Word) (s : State) : hostWr r.offset v s = writeReg r v s := by
  simp [hostWr, offset_aligned, regAt_offset]

/-- A write where no register is has no effect (R26). -/
theorem hostWr_unmapped {off : Nat} (h : regAt off = none) (h4 : off % 4 = 0) (v : Word) (s : State) :
    hostWr off v s = s := by
  simp [hostWr, h4, h]

/-! ### Reads and writes of the registers (R181 to R183) -/

/-- Settles O40: an offset has no register, so it is none of those named, or it is one register's. -/
theorem hostReadsRegisters : Obligations.HostReadsRegisters := by
  unfold Obligations.HostReadsRegisters
  intro s off hm
  constructor
  · intro h4
    rw [hostRd, if_neg h4, settle_recordFault _ hm]
  · intro h4
    refine ⟨s.readOffset off, ?_, ?_⟩
    · rw [hostRd, if_pos h4]
      exact settle_of_none (s := s.returned _) hm
    · obtain hnone | ⟨r, -, rfl⟩ := regAt_cases off
      · rw [readOffset_unmapped hnone]
        simp [regAt_eq_none_iff.1 hnone]
      · rw [readOffset_offset]
        cases r <;> rfl

/-- The write-1-to-clear bits of STATUS (R183). -/
theorem cleared_eq (v : Word) (st : Status) :
    st.cleared v = { st with
      done := if v.getLsbD 1 then false else st.done
      ovr := if v.getLsbD 2 then false else st.ovr } := by
  have hclear (flag bit : Bool) : (flag && !bit) = if bit then false else flag := by cases bit <;> simp
  simp only [Status.cleared, hclear]

/-- Settles O41: an offset has no register, so it is none of those named, or it is one register's. -/
theorem hostWritesRegisters : Obligations.HostWritesRegisters := by
  unfold Obligations.HostWritesRegisters
  intro s off v hm
  constructor
  · intro h4
    rw [hostWr, if_neg h4, settle_recordFault _ hm]
  · intro h4 hpcuCmd hfsuCmd
    obtain hnone | ⟨r, -, rfl⟩ := regAt_cases off
    · refine ⟨s, ?_, ?_⟩
      · rw [hostWr_unmapped hnone h4, settle_of_none hm]
      · simp [regAt_eq_none_iff.1 hnone]
    · refine ⟨writeReg r v s, ?_, ?_⟩
      · rw [hostWr_offset, settle_of_none ((writeReg_keepsRecord r v s).mfault.trans hm)]
      · cases r with
        | pcuCmd => exact absurd rfl hpcuCmd
        | fsuCmd => exact absurd rfl hfsuCmd
        | pcuStatus | fsuStatus => simp only [writeReg, writeStatus, cleared_eq]; rfl
        | _ => rfl

/-! ### The CMD registers (R184, R185) -/

/-- A CMD write to a BUSY unit sets OVR (R185). -/
theorem writeCmd_busy {u : UnitId} {s : State} (w : Word) (h : (s.status u).busy = true) :
    writeCmd u w s = s.setStatus u (s.status u).overrun := by
  simp [writeCmd, h]

/-- Settles O42: the write is an issue, which records no fault. -/
theorem cmdWriteIssues : Obligations.CmdWriteIssues := by
  unfold Obligations.CmdWriteIssues
  intro s w hm
  constructor
  · intro hidle
    rw [hostWr_pcuCmd, writeCmd_idle (u := .pcu) w hidle]
    exact settle_of_none (s := issue .pcu w s) hm
  · intro hidle
    rw [hostWr_fsuCmd, writeCmd_idle (u := .fsu) w hidle]
    exact settle_of_none (s := issue .fsu w s) hm

/-- Settles O43: the write is an overrun, which records no fault. -/
theorem busyCmdWriteSetsOverrun : Obligations.BusyCmdWriteSetsOverrun := by
  unfold Obligations.BusyCmdWriteSetsOverrun
  intro s w hm
  constructor
  · intro hbusy
    rw [hostWr_pcuCmd, writeCmd_busy (u := .pcu) w hbusy]
    exact settle_of_none (s := s.setStatus .pcu _) hm
  · intro hbusy
    rw [hostWr_fsuCmd, writeCmd_busy (u := .fsu) w hbusy]
    exact settle_of_none (s := s.setStatus .fsu _) hm

/-- A 32-bit word placed at the PCU, the PCU's turn taken off the agenda again, is its issue (log 18). -/
theorem withFetchWord_turn_taken {w : Nat} (hw : w < 2 ^ 32) (s : State) :
    { s.withFetchWord 32 w with agenda := s.agenda } = issue .pcu (BitVec.ofNat 32 w) s := by
  rw [State.withFetchWord, Nat.mod_eq_of_lt hw]
  rfl

/-- Settles O8: the table's reading tries the PCU first, and the placed word's step is the PCU's turn. -/
theorem placedWordRunsNext : Obligations.PlacedWordRunsNext := by
  unfold Obligations.PlacedWordRunsNext
  intro s w i hm hw hd
  constructor
  · rw [decodeTableWord, if_pos ⟨le_rfl, hw⟩, hd]
  · calc step (s.withFetchWord 32 w)
      _ = pcuStep { s.withFetchWord 32 w with agenda := s.agenda } := step_of_agenda (s := s.withFetchWord 32 w) hm rfl
      _ = pcuStep (issue .pcu (BitVec.ofNat 32 w) s) := by rw [withFetchWord_turn_taken hw]
      _ = exec i (issue .pcu (BitVec.ofNat 32 w) s) := pcuStep_legal rfl hd

/-! ### The buffer accesses (R186, R187, R241) -/

theorem inRanges_nil {a : Nat} : inRanges [] a = false := rfl

theorem inRanges_cons {r : Nat × Nat} {rs : List (Nat × Nat)} {a : Nat} :
    inRanges (r :: rs) a = true ↔ (r.1 ≤ a ∧ a < r.1 + r.2) ∨ inRanges rs a = true := by
  simp [inRanges]

/-- The latched footprint is R241's, command by command. -/
theorem inRanges_footprint_iff {s : State} {u : UnitId} {a : Nat} :
    inRanges (s.footprint u) a = true ↔ FootprintByte s u a := by
  cases u with
  | pcu =>
    simp only [State.footprint, pcuFootprint, FootprintByte]
    split <;> next hd => simp [hd, inRanges_nil, inRanges_cons, PcuLatch.pixels]
  | fsu =>
    simp only [State.footprint, fsuFootprint, FootprintByte]
    split <;> next hd => simp [hd, inRanges_nil, inRanges_cons, FsuLatch.builtLength]

/-- A byte inside the memory is a hazard when the unit is BUSY and its footprint holds the byte (R241). -/
theorem hazard_iff {s : State} {u : UnitId} {a : Nat} (hin : a < s.bufSize u.buf) :
    s.hazard u a = true ↔ (s.status u).busy = true ∧ FootprintByte s u a := by
  simp [State.hazard, hin, inRanges_footprint_iff]

section
variable {s : State} {u : UnitId} {addr : Word}

/-- A read outside the memory returns 0 (R186). -/
theorem hostBmr_outside (h : s.bufSize u.buf ≤ addr.toNat) : hostBmr u addr s = s.returned (.byte u addr 0) := by
  simp [hostBmr, h]

/-- A write outside the memory is dropped (R187). -/
theorem hostBmw_outside (b : Byte) (h : s.bufSize u.buf ≤ addr.toNat) : hostBmw u addr b s = s := by
  simp [hostBmw, h]

variable (hin : addr.toNat < s.bufSize u.buf) (hz : s.hazard u addr.toNat = false)
include hin hz

theorem hostBmr_of_get {v : Byte} (hv : memGet (s.buf u.buf) addr.toNat = some v) :
    hostBmr u addr s = s.returned (.byte u addr v) := by
  simp [hostBmr, hin, hz, hv]

theorem hostBmr_of_get_none (hv : memGet (s.buf u.buf) addr.toNat = none) :
    hostBmr u addr s = s.recordFault (.unwrittenRead u.buf addr.toNat) := by
  simp [hostBmr, hin, hz, hv]

theorem hostBmw_inside (b : Byte) :
    hostBmw u addr b s = s.setBuf u.buf (memSet (s.buf u.buf) addr.toNat b) := by
  simp [hostBmw, hin, hz]

end

/-- Settles O44: outside the memory, and inside it at a byte that is no hazard. -/
theorem hostBufferAccess : Obligations.HostBufferAccess := by
  unfold Obligations.HostBufferAccess
  intro s u addr b hm
  constructor
  · intro hout
    rw [hostBmr_outside hout, hostBmw_outside b hout]
    exact ⟨settle_of_none (s := s.returned _) hm, settle_of_none hm⟩
  · intro hin hfree
    have hz : s.hazard u addr.toNat = false := Bool.eq_false_iff.2 (mt (hazard_iff hin).1 hfree)
    refine ⟨fun v hv => ?_, fun hv => ?_, memSet (s.buf u.buf) addr.toNat b, ?_, memGet_memSet_same _ _ b,
      fun a ha => memGet_memSet_other _ b ha⟩
    · rw [hostBmr_of_get hin hz hv]
      exact settle_of_none (s := s.returned _) hm
    · rw [hostBmr_of_get_none hin hz hv, settle_recordFault _ hm]
    · rw [hostBmw_inside hin hz, settle_of_none ((setBuf_keepsRecord u.buf _ s).mfault.trans hm)]
      cases u <;> rfl

/-! ### The two units apart (R188) -/

theorem SamePcu.refl (s : State) : SamePcu s s := ⟨rfl, rfl, rfl, rfl⟩

theorem SameFsu.refl (s : State) : SameFsu s s := ⟨rfl, rfl, rfl, rfl, rfl, rfl⟩

theorem writeCmd_sameFsu (w : Word) (s : State) : SameFsu s (writeCmd .pcu w s) := by
  unfold writeCmd
  split <;> exact ⟨rfl, rfl, rfl, rfl, rfl, rfl⟩

theorem writeCmd_samePcu (w : Word) (s : State) : SamePcu s (writeCmd .fsu w s) := by
  unfold writeCmd
  split <;> exact ⟨rfl, rfl, rfl, rfl⟩

/-- The registers below 0x40 are the PCU's (R24). -/
theorem writeReg_sameFsu {r : Reg} (hr : r.offset < 0x40) (v : Word) (s : State) : SameFsu s (writeReg r v s) := by
  cases r with
  | pcuCmd => exact writeCmd_sameFsu v s
  | pcuStatus | pcuWidth | pcuHeight | pcuSrcAddr | pcuSrcLen | pcuDstAddr | pcuPix565 | pcuRgb888 | pcuErrActual
  | pcuErrExpected => exact ⟨rfl, rfl, rfl, rfl, rfl, rfl⟩
  | _ => exact absurd hr (by decide)

/-- The registers from 0x40 up are the FSU's (R24). -/
theorem writeReg_samePcu {r : Reg} (hr : 0x40 ≤ r.offset) (v : Word) (s : State) : SamePcu s (writeReg r v s) := by
  cases r with
  | fsuCmd => exact writeCmd_samePcu v s
  | fsuStatus | fsuPathAddr | fsuPathLen | fsuPayAddr | fsuPayLen | fsuFrmAddr | fsuFrmLen | fsuTxSent
  | fsuTxCalls => exact ⟨rfl, rfl, rfl, rfl⟩
  | _ => exact absurd hr (by decide)

/-- Settles O46: a register write by its offset's bank, a buffer write by its memory, and a read by the record it
grows. -/
theorem transactionsStayInTheirUnit : Obligations.TransactionsStayInTheirUnit := by
  unfold Obligations.TransactionsStayInTheirUnit
  intro s t x h
  refine ⟨?_, ?_, ?_⟩
  · rintro (⟨off, v, rfl, hoff⟩ | ⟨a, b, rfl⟩)
    · obtain ⟨-, ⟨r, -, rfl, rfl⟩ | ⟨-, rfl⟩⟩ := hostWr_next h
      · exact writeReg_sameFsu hoff v s
      · exact .refl _
    · obtain ⟨-, rfl⟩ | ⟨-, -, rfl⟩ := hostBmw_next h
      · exact .refl _
      · exact ⟨rfl, rfl, rfl, rfl, rfl, rfl⟩
  · rintro (⟨off, v, rfl, hoff⟩ | ⟨a, b, rfl⟩)
    · obtain ⟨-, ⟨r, -, rfl, rfl⟩ | ⟨-, rfl⟩⟩ := hostWr_next h
      · exact writeReg_samePcu hoff v s
      · exact .refl _
    · obtain ⟨-, rfl⟩ | ⟨-, -, rfl⟩ := hostBmw_next h
      · exact .refl _
      · exact ⟨rfl, rfl, rfl, rfl⟩
  · rintro (⟨off, rfl⟩ | ⟨u, a, rfl⟩)
    · obtain ⟨-, -, rfl⟩ := hostRd_next h
      exact ⟨⟨rfl, rfl, rfl, rfl⟩, ⟨rfl, rfl, rfl, rfl, rfl, rfl⟩⟩
    · obtain ⟨-, b, rfl⟩ := hostBmr_next h
      exact ⟨⟨rfl, rfl, rfl, rfl⟩, ⟨rfl, rfl, rfl, rfl, rfl, rfl⟩⟩

/-! ### Running commands (R189) -/

/-- What the two units' running commands hold beside the memories: the latches, the phases and the SEND counters (R46,
R47, R48). -/
def State.commandView (s : State) : PcuLatch × PcuPhase × FsuLatch × FsuPhase × Word × Word :=
  (s.latPcu, s.phasePcu, s.latFsu, s.phaseFsu, s.fsu.txSent, s.fsu.txCalls)

/-- The command of a BUSY unit is the same in both (R48, R189). -/
structure SameRunning (s t : State) : Prop where
  pcu : s.pcu.status.busy = true → t.latPcu = s.latPcu ∧ t.phasePcu = s.phasePcu
  fsu : s.fsu.status.busy = true → t.latFsu = s.latFsu ∧ t.phaseFsu = s.phaseFsu ∧
    t.fsu.txSent = s.fsu.txSent ∧ t.fsu.txCalls = s.fsu.txCalls

theorem SameRunning.of_commandView {s t : State} (h : t.commandView = s.commandView) : SameRunning s t := by
  simp only [State.commandView, Prod.mk.injEq] at h
  obtain ⟨hlatPcu, hphasePcu, hfsu⟩ := h
  exact ⟨fun _ => ⟨hlatPcu, hphasePcu⟩, fun _ => hfsu⟩

/-- A CMD write to a BUSY unit is an overrun, and an issue reaches the other unit only (R184, R185). -/
theorem writeCmd_sameRunning (u : UnitId) (w : Word) (s : State) : SameRunning s (writeCmd u w s) := by
  cases hb : (s.status u).busy with
  | true =>
    rw [writeCmd_busy w hb]
    cases u <;> exact .of_commandView rfl
  | false =>
    rw [writeCmd_idle w hb]
    cases u with
    | pcu => exact ⟨fun hbusy => absurd (hb.symm.trans hbusy) nofun, fun _ => ⟨rfl, rfl, rfl, rfl⟩⟩
    | fsu => exact ⟨fun _ => ⟨rfl, rfl⟩, fun hbusy => absurd (hb.symm.trans hbusy) nofun⟩

/-- Of the registers only the CMD registers reach a latch, a phase or a SEND counter. -/
theorem writeReg_sameRunning (r : Reg) (v : Word) (s : State) : SameRunning s (writeReg r v s) := by
  cases r with
  | pcuCmd | fsuCmd => exact writeCmd_sameRunning _ v s
  | _ => exact .of_commandView rfl

theorem hostStep_sameRunning {x : Transaction} {s t : State} (h : settle (hostStep x s) = .next t) :
    SameRunning s t := by
  cases x with
  | rd off =>
    obtain ⟨-, -, rfl⟩ := hostRd_next h
    exact .of_commandView rfl
  | wr off v =>
    obtain ⟨-, ⟨r, -, -, rfl⟩ | ⟨-, rfl⟩⟩ := hostWr_next h
    · exact writeReg_sameRunning r v s
    · exact .of_commandView rfl
  | bmr u addr =>
    obtain ⟨-, b, rfl⟩ := hostBmr_next h
    exact .of_commandView rfl
  | bmw u addr b =>
    obtain ⟨-, rfl⟩ | ⟨-, -, rfl⟩ := hostBmw_next h
    · exact .of_commandView rfl
    · cases u <;> exact .of_commandView rfl

/-- Settles O47: every transaction leaves the BUSY units' commands as they are. -/
theorem busyCommandIsUntouchedByHost : Obligations.BusyCommandIsUntouchedByHost := by
  unfold Obligations.BusyCommandIsUntouchedByHost
  intro s t x h
  obtain ⟨hpcu, hfsu⟩ := hostStep_sameRunning h
  exact ⟨hpcu, hfsu⟩

end Sys2Proof.Machine
end

section
/-! PROOFS (60_exceptions.md). How a command ends: the registers a completion writes, the error each failing check
gives, the codes each command can end with, and what a failing command leaves alone. -/

namespace Sys2Proof.Machine

/-! ### Completion (R205, R206) -/

/-- Only PAYLOAD_TOO_SMALL has a count to record (R202). -/
theorem CmdError.info_eq_zero {e : CmdError} (h : e.code ≠ .payloadTooSmall) : e.actual = 0 ∧ e.expected = 0 := by
  cases e with
  | payloadTooSmall => exact absurd rfl h
  | _ => exact ⟨rfl, rfl⟩

theorem raise_pcu_eq (e : CmdError) (s : State) : raise .pcu e s = endPcu e.code e.actual e.expected s := rfl

theorem raise_fsu_eq (e : CmdError) (s : State) : raise .fsu e s = endFsu e.code s := rfl

/-- Settles O15: each end is `finish` at its unit, and only PAYLOAD_TOO_SMALL has info. -/
theorem completionWritesStatus : Obligations.CompletionWritesStatus := by
  unfold Obligations.CompletionWritesStatus
  refine fun s e => ⟨rfl, rfl, raise_fsu_eq e s, fun _ _ => rfl, fun hcode => ?_⟩
  obtain ⟨hactual, hexpected⟩ := CmdError.info_eq_zero hcode
  rw [raise_pcu_eq, hactual, hexpected]

/-! ### The first failing check (R204) -/

/-- A nonempty range outside its memory fails the range test (R63). -/
theorem inRange_false_iff {size a n : Nat} : inRange size a n = false ↔ n ≠ 0 ∧ size < a + n := by
  rw [← Bool.not_eq_true, inRange_iff]
  omega

/-- The path test fails at a space or a newline (R140). -/
theorem validPath_false_iff {p : List Byte} : validPath p = false ↔ ∃ b ∈ p, b = 0x20#8 ∨ b = 0x0A#8 := by
  simp [validPath, Config.forbidden]

section
variable {f : List Byte → List Byte} {src avail need out : Nat} {s t : State}

/-- With no fault recorded, a check's error ends a buffer command. -/
theorem settle_bufferCommand_error {e : CmdError} (hm : s.mfault = none)
    (hcheck : bufferCheck s.pbmSize s.latPcu src avail need out = some e) :
    settle (bufferCommand f src avail need out s) = .next (endPcu e.code e.actual e.expected s) := by
  simp only [bufferCommand, hcheck]
  exact settle_of_none hm

/-- The checks of a buffer command, in R204's order with R202's info. Past the dimension check neither range is
empty. -/
theorem bufferCommand_firstError {c : PcuLatch} (hm : s.mfault = none) (hc : c = s.latPcu)
    (hpos : c.pixels ≠ 0 → 0 < need ∧ 0 < out) :
    if c.pixels = 0 ∨ 0xFFFFFFFF < 3 * c.pixels then
      settle (bufferCommand f src avail need out s) = .next (endPcu .invalidArguments 0 0 s)
    else if c.srcLen.toNat ≠ 0 ∧ s.pbmSize < c.srcAddr.toNat + c.srcLen.toNat then
      settle (bufferCommand f src avail need out s) = .next (endPcu .rangeError 0 0 s)
    else if avail < need then
      settle (bufferCommand f src avail need out s) =
        .next (endPcu .payloadTooSmall (BitVec.ofNat 32 avail) (BitVec.ofNat 32 need) s)
    else if s.pbmSize < c.dstAddr.toNat + out then
      settle (bufferCommand f src avail need out s) = .next (endPcu .rangeError 0 0 s)
    else if src < c.dstAddr.toNat + out ∧ c.dstAddr.toNat < src + need then
      settle (bufferCommand f src avail need out s) = .next (endPcu .overlap 0 0 s)
    else True := by
  subst hc
  split
  · next hdim =>
    have hbad : s.latPcu.badDimensions = true := badDimensions_iff.2 hdim
    exact settle_bufferCommand_error hm (e := .invalidArguments) (by simp [bufferCheck, hbad])
  next hdim =>
  have hgood : s.latPcu.badDimensions = false := Bool.eq_false_iff.2 (mt badDimensions_iff.1 hdim)
  obtain ⟨hneed, hout⟩ := hpos (not_or.1 hdim).1
  split
  · next hsrc =>
    exact settle_bufferCommand_error hm (e := .rangeError) (by simp [bufferCheck, hgood, inRange_false_iff.2 hsrc])
  next hsrc =>
  have hsrcIn : inRange s.pbmSize s.latPcu.srcAddr.toNat s.latPcu.srcLen.toNat = true :=
    Bool.of_not_eq_false (mt inRange_false_iff.1 hsrc)
  split
  · next hsmall =>
    exact settle_bufferCommand_error hm (e := .payloadTooSmall avail need)
      (by simp [bufferCheck, hgood, hsrcIn, hsmall])
  next hsmall =>
  split
  · next hdst =>
    exact settle_bufferCommand_error hm (e := .rangeError)
      (by simp [bufferCheck, hgood, hsrcIn, hsmall, inRange_false_iff.2 ⟨hout.ne', hdst⟩])
  next hdst =>
  have hdstIn : inRange s.pbmSize s.latPcu.dstAddr.toNat out = true := inRange_iff.2 (.inr (not_lt.1 hdst))
  split
  · next hover =>
    exact settle_bufferCommand_error hm (e := .overlap)
      (by simp [bufferCheck, hgood, hsrcIn, hsmall, hdstIn, overlaps_iff.2 ⟨hneed, hout, hover⟩])
  · trivial

/-- A buffer command that answers a next state ends with ECODE 0 or with an error of its own, which changes nothing
more (R203, R207). -/
theorem bufferCommand_end (h : settle (bufferCommand f src avail need out s) = .next t) :
    t.pcu.status.ecode = .none ∨
    ∃ e : CmdError, e.code ∈ [ECode.invalidArguments, .rangeError, .payloadTooSmall, .overlap] ∧
      t = raise .pcu e s := by
  obtain ⟨-, ⟨e, hcheck, rfl⟩ | ⟨-, bs, -, rfl⟩⟩ := bufferCommand_next h
  · refine .inr ⟨e, ?_, rfl⟩
    obtain rfl | rfl | ⟨rfl, -⟩ | rfl := bufferCheck_some hcheck <;> simp [CmdError.code]
  · exact .inl rfl

end

/-- With no fault recorded, BUILD ends with the error its effect raises. -/
theorem exec_build_error {s : State} {e : CmdError} (hm : s.mfault = none) (h : buildFrame s = raise .fsu e s) :
    exec .build s = .next (endFsu e.code s) := by
  rw [exec_build, h]
  exact settle_of_none hm

/-- The checks of BUILD, in R204's order: both source ranges, then, with the path read, the path's bytes, the frame's
range and its overlap with the sources. The frame is never empty. -/
theorem build_firstError {s : State} {c : FsuLatch} (hm : s.mfault = none) (hc : c = s.latFsu) :
    if c.pathLen.toNat ≠ 0 ∧ s.fbmSize < c.pathAddr.toNat + c.pathLen.toNat then
      exec .build s = .next (endFsu .rangeError s)
    else if c.payLen.toNat ≠ 0 ∧ s.fbmSize < c.payAddr.toNat + c.payLen.toNat then
      exec .build s = .next (endFsu .rangeError s)
    else ∀ path, memRead s.fbm c.pathAddr.toNat c.pathLen.toNat = .ok path →
      if ∃ b ∈ path, b = 0x20#8 ∨ b = 0x0A#8 then exec .build s = .next (endFsu .invalidPath s)
      else if s.fbmSize < c.frmAddr.toNat + c.builtLength then
        exec .build s = .next (endFsu .rangeError s)
      else if (c.pathLen.toNat ≠ 0 ∧ c.frmAddr.toNat < c.pathAddr.toNat + c.pathLen.toNat ∧
            c.pathAddr.toNat < c.frmAddr.toNat + c.builtLength) ∨
          (c.payLen.toNat ≠ 0 ∧ c.frmAddr.toNat < c.payAddr.toNat + c.payLen.toNat ∧
            c.payAddr.toNat < c.frmAddr.toNat + c.builtLength) then
        exec .build s = .next (endFsu .overlap s)
      else True := by
  subst hc
  have hlen : s.latFsu.builtLength ≠ 0 := by
    rw [FsuLatch.builtLength]
    omega
  split
  · next hpath =>
    exact exec_build_error hm (e := .rangeError) (by simp [buildFrame, inRange_false_iff.2 hpath])
  next hpath =>
  have hpathIn := Bool.of_not_eq_false (mt inRange_false_iff.1 hpath)
  split
  · next hpay =>
    exact exec_build_error hm (e := .rangeError) (by simp [buildFrame, hpathIn, inRange_false_iff.2 hpay])
  next hpay =>
  have hpayIn := Bool.of_not_eq_false (mt inRange_false_iff.1 hpay)
  intro path hread
  split
  · next hbad =>
    exact exec_build_error hm (e := .invalidPath)
      (by simp [buildFrame, hpathIn, hpayIn, hread, validPath_false_iff.2 hbad])
  next hgood =>
  have hvalid := Bool.of_not_eq_false (mt validPath_false_iff.1 hgood)
  split
  · next hframe =>
    exact exec_build_error hm (e := .rangeError)
      (by simp [buildFrame, hpathIn, hpayIn, hread, hvalid, inRange_false_iff.2 ⟨hlen, hframe⟩])
  next hframe =>
  have hframeIn : inRange s.fbmSize s.latFsu.frmAddr.toNat s.latFsu.builtLength = true :=
    inRange_iff.2 (.inr (not_lt.1 hframe))
  split
  · next hover =>
    have hover' : overlaps s.latFsu.frmAddr.toNat s.latFsu.builtLength s.latFsu.pathAddr.toNat
          s.latFsu.pathLen.toNat = true ∨
        overlaps s.latFsu.frmAddr.toNat s.latFsu.builtLength s.latFsu.payAddr.toNat s.latFsu.payLen.toNat = true := by
      rw [overlaps_iff, overlaps_iff]
      omega
    exact exec_build_error hm (e := .overlap)
      (by simp [buildFrame, hpathIn, hpayIn, hread, hvalid, hframeIn, hover'])
  · trivial

/-- Settles O22: the two buffer commands share one row of checks, BUILD has its own, and SEND has its start's range
test. -/
theorem firstFailingCheckIsReported : Obligations.FirstFailingCheckIsReported := by
  unfold Obligations.FirstFailingCheckIsReported
  intro s hm
  refine ⟨?_, ?_, ?_, fun hp hlen hout => (sendStarts s _ _ hm hp rfl rfl).1 hlen hout⟩
  · rintro hdr n h rfl rfl
    exact bufferCommand_firstError hm rfl fun hne => by omega
  · rintro n rfl
    have hfirst := bufferCommand_firstError (f := encodeStream) (src := s.latPcu.srcAddr.toNat)
      (avail := s.latPcu.srcLen.toNat) (need := 3 * s.latPcu.pixels) (out := 2 * s.latPcu.pixels) hm rfl
      fun hne => by omega
    rw [BitVec.ofNat_toNat, BitVec.setWidth_eq] at hfirst
    exact hfirst
  · rintro P n Q m F L rfl rfl rfl rfl rfl rfl
    exact build_firstError hm rfl

/-! ### The codes of each command (R203) -/

/-- The end of either buffer command. -/
theorem exec_buffer_end {i : Instr} {s t : State} (hi : (∃ hdr, i = .decBuf hdr) ∨ i = .encBuf)
    (h : exec i s = .next t) :
    t.pcu.status.ecode = .none ∨
    ∃ e : CmdError, e.code ∈ [ECode.invalidArguments, .rangeError, .payloadTooSmall, .overlap] ∧
      t = raise .pcu e s := by
  obtain ⟨hdr, rfl⟩ | rfl := hi
  · exact bufferCommand_end h
  · exact bufferCommand_end h

/-- BUILD that answers a next state ends with ECODE 0 or with an error of its own, which changes nothing more (R203,
R207). -/
theorem exec_build_end {s t : State} (h : exec .build s = .next t) :
    t.fsu.status.ecode = .none ∨
    ∃ e : CmdError, e.code ∈ [ECode.rangeError, .invalidPath, .overlap] ∧ t = raise .fsu e s := by
  rw [exec_build] at h
  unfold buildFrame at h
  dsimp only at h
  split at h
  · exact .inr ⟨_, by simp [CmdError.code], (settle_next.1 h).1.symm⟩
  split at h
  · exact .inr ⟨_, by simp [CmdError.code], (settle_next.1 h).1.symm⟩
  split at h
  · exact absurd h settle_recordFault_next
  split at h
  · exact .inr ⟨_, by simp [CmdError.code], (settle_next.1 h).1.symm⟩
  split at h
  · exact .inr ⟨_, by simp [CmdError.code], (settle_next.1 h).1.symm⟩
  split at h
  · exact .inr ⟨_, by simp [CmdError.code], (settle_next.1 h).1.symm⟩
  split at h
  · exact absurd h settle_recordFault_next
  obtain ⟨rfl, -⟩ := settle_next.1 h
  exact .inl rfl

theorem exec_buffer_ecode {i : Instr} {s t : State} (hi : (∃ hdr, i = .decBuf hdr) ∨ i = .encBuf)
    (h : exec i s = .next t) :
    t.pcu.status.ecode ∈ [ECode.none, .invalidArguments, .rangeError, .payloadTooSmall, .overlap] := by
  obtain hok | ⟨e, he, rfl⟩ := exec_buffer_end hi h
  · simp [hok]
  · exact List.mem_cons_of_mem _ he

/-- A step of SEND that leaves the FSU Idle is the range error, a failed write attempt or the flush. -/
theorem SendChange.ecode_of_idle {s t : State} (h : SendChange s t) (hidle : t.phaseFsu = .idle) :
    t.fsu.status.ecode ∈ [ECode.none, .rangeError, .transportWriteFailed] := by
  cases h with
  | refused => simp [CmdError.code, Status.completed]
  | opened => cases hidle
  | accepted hp => simp [hp] at hidle
  | failed => simp [Status.completed]
  | flushed => cases s.flushAnswer <;> simp [Status.completed, flushCode]

/-- The turn of a Pending PCU that holds an illegal word ends with ILLEGAL_COMMAND (R87). -/
theorem pcuStep_illegal_ecode {s t : State} {why : Illegal} (hp : s.phasePcu = .pending)
    (hd : decode .pcu s.latPcu.cmd = .illegal why) (h : pcuStep s = .next t) :
    t.pcu.status.ecode = .illegalCommand := by
  obtain ⟨hidle, -⟩ | ⟨-, i, hlegal, -⟩ | ⟨-, -, rfl⟩ := pcuStep_next h
  · simp [hp] at hidle
  · simp [hd] at hlegal
  · rfl

/-- The turn of a Pending FSU that holds an illegal word ends with ILLEGAL_COMMAND (R87). -/
theorem fsuStep_illegal_ecode {s t : State} {why : Illegal} (hp : s.phaseFsu = .pending)
    (hd : decode .fsu s.latFsu.cmd = .illegal why) (h : fsuStep s = .next t) :
    t.fsu.status.ecode = .illegalCommand := by
  obtain ⟨hidle, -⟩ | ⟨-, i, hlegal, -⟩ | ⟨-, -, rfl⟩ | ⟨hwriting, -⟩ := fsuStep_next h
  · simp [hp] at hidle
  · simp [hd] at hlegal
  · rfl
  · simp [hp] at hwriting

/-- Settles O23: the end of each command, and the end of an illegal word at each unit. -/
theorem commandsRaiseOnlyTheirCodes : Obligations.CommandsRaiseOnlyTheirCodes := by
  unfold Obligations.CommandsRaiseOnlyTheirCodes
  refine fun s t => ⟨?_, ?_, fun h => ?_, fun h => (exec_send_change h).ecode_of_idle,
    fun _ => pcuStep_illegal_ecode, fun _ => fsuStep_illegal_ecode⟩
  · rintro (h | h) <;> obtain ⟨rfl, -⟩ := settle_next.1 h <;> rfl
  · rintro (⟨hdr, h⟩ | h)
    · exact exec_buffer_ecode (.inl ⟨hdr, rfl⟩) h
    · exact exec_buffer_ecode (.inr rfl) h
  · obtain hok | ⟨e, he, rfl⟩ := exec_build_end h
    · simp [hok]
    · exact List.mem_cons_of_mem _ he

/-! ### What a failing command leaves alone (R207) -/

/-- Settles O24: a command that does not end with ECODE 0 has only raised its error. -/
theorem errorsArePrecise : Obligations.ErrorsArePrecise := by
  unfold Obligations.ErrorsArePrecise
  intro i s t h
  constructor
  · intro hi hcode
    obtain hok | ⟨e, -, rfl⟩ := exec_buffer_end hi h
    · exact absurd hok hcode
    · exact ⟨rfl, rfl, rfl, rfl⟩
  · rintro rfl hcode
    obtain hok | ⟨e, -, rfl⟩ := exec_build_end h
    · exact absurd hok hcode
    · exact ⟨rfl, rfl, rfl⟩

end Sys2Proof.Machine
end

section
/-! PROOFS (70_reset_and_hazards.md). What reset leaves and what the reset state holds, the commands issued with the
reset values, the footprint hazard of a host buffer access, and how many turns a SEND can still take. -/

namespace Sys2Proof.Machine

/-! ### Reset (R230, R231, R233) -/

/-- With both banks at their reset values every offset reads 0 (R24). -/
theorem readOffset_of_reset_banks {s : State} (hpcu : s.pcu = .reset) (hfsu : s.fsu = .reset) (off : Nat) :
    s.readOffset off = 0 := by
  obtain hnone | ⟨r, -, rfl⟩ := regAt_cases off
  · exact readOffset_unmapped hnone s
  · rw [readOffset_offset]
    cases r <;> simp only [State.readReg, hpcu, hfsu] <;> rfl

/-- Settles O48: the fault record is kept, so the reset block is the next state; its fields are the laws of
`resetBlock`. -/
theorem resetStepEffect : Obligations.ResetStepEffect := by
  unfold Obligations.ResetStepEffect
  intro s hm
  refine ⟨resetBlock s, settle_of_none ((resetBlock_mfault s).trans hm), readOffset_of_reset_banks rfl rfl, rfl, rfl,
    resetBlock_txOpen s, fun _ => ⟨rfl, rfl⟩, fun hopen => ?_, fun hclosed => ?_, resetBlock_mfault s,
    resetBlock_pbmSize s, resetBlock_fbmSize s, resetBlock_agenda s, resetBlock_writeAnswers s,
    resetBlock_flushAnswers s, resetBlock_hostLog s⟩
  · simp [hopen]
  · simp [hclosed]

theorem pbmSize_range : 1 ≤ Config.pbmSize ∧ Config.pbmSize ≤ Config.maxBytes :=
  ⟨Nat.le_add_left 1 _, Config.pbmSizeLessOne.isLt⟩

theorem fbmSize_range : 1 ≤ Config.fbmSize ∧ Config.fbmSize ≤ Config.maxBytes :=
  ⟨Nat.le_add_left 1 _, Config.fbmSizeLessOne.isLt⟩

/-- At reset both units rest with their flags clear, and both memories are empty. -/
theorem reset_inv : State.reset.Inv := by
  obtain ⟨hpbm, hfbm⟩ := reset_memories_wf
  refine ⟨?_, ?_, ⟨hpbm, hfbm, nofun, nofun, pbmSize_range, fbmSize_range⟩⟩
  · constructor <;> simp [State.reset, PcuBank.reset, Status.reset]
  · constructor <;> simp [State.reset, FsuBank.reset, Status.reset]

/-- Settles O50: nothing runs at reset, so each invariant asks only for cleared flags, empty memories and an empty
trace. -/
theorem resetStateMeetsInvariants : Obligations.ResetStateMeetsInvariants :=
  ⟨reset_inv, sessionInv_of_closed nofun rfl rfl, readOffset_of_reset_banks rfl rfl, rfl, rfl, rfl, rfl, rfl, rfl⟩

/-! ### Commands issued with the reset values (R235) -/

/-- A buffer command with bad dimensions ends with INVALID_ARGUMENTS, its first check (R106, R204). -/
theorem exec_buffer_of_badDimensions {i : Instr} {s : State} (hi : (∃ hdr, i = .decBuf hdr) ∨ i = .encBuf)
    (hm : s.mfault = none) (hbad : s.latPcu.badDimensions = true) :
    exec i s = .next (endPcu .invalidArguments 0 0 s) := by
  have hcheck (src avail need out : Nat) :
      bufferCheck s.pbmSize s.latPcu src avail need out = some .invalidArguments := by
    simp [bufferCheck, hbad]
  obtain ⟨hdr, rfl⟩ | rfl := hi <;> exact settle_bufferCommand_error hm (hcheck _ _ _ _)

section
variable {s : State} (hm : s.mfault = none) (hpath : s.latFsu.pathLen.toNat = 0) (hpay : s.latFsu.payLen.toNat = 0)
include hm hpath hpay

/-- BUILD of an empty path and payload makes their five-byte frame when FBM has room for it. -/
theorem exec_build_empty (hfits : s.latFsu.frmAddr.toNat + 5 ≤ s.fbmSize) :
    exec .build s = .next (buildDone [] [] s) := by
  have hroom : s.latFsu.frmAddr.toNat + (s.latFsu.pathLen.toNat + 5 + s.latFsu.payLen.toNat) ≤ s.fbmSize := by omega
  exact buildCompletes s [] [] _ _ _ _ _ hm rfl rfl rfl rfl rfl (.inl hpath) (.inl hpay) (by rw [hpath, memRead]) nofun
    hroom (.inl hpath) (.inl hpay) (by rw [hpay, memRead])

/-- BUILD of an empty path and payload ends with RANGE_ERROR when FBM has no room for their five-byte frame. -/
theorem exec_build_empty_short (hshort : s.fbmSize < s.latFsu.frmAddr.toNat + 5) :
    exec .build s = .next (endFsu .rangeError s) := by
  have hfirst := build_firstError hm rfl
  rw [if_neg fun h => h.1 hpath, if_neg fun h => h.1 hpay] at hfirst
  have hframe := hfirst [] (by rw [hpath, memRead])
  rwa [if_neg nofun, if_pos (by rw [FsuLatch.builtLength]; omega)] at hframe

end

/-- The bytes of the frame of an empty path and payload (R142). -/
theorem frame_empty : frame [] 0 [] = [0x0A#8, 0#8, 0#8, 0#8, 0#8] := by decide

/-- Settles O49: at the reset values the width is 0, and of the FSU's ranges only BUILD's five-byte frame is not
empty. -/
theorem commandsAtResetValues : Obligations.CommandsAtResetValues := by
  unfold Obligations.CommandsAtResetValues
  rintro size s rfl
  refine ⟨fun hdr => ⟨_, exec_buffer_of_badDimensions (.inl ⟨hdr, rfl⟩) rfl rfl, rfl⟩,
    ⟨_, exec_buffer_of_badDimensions (.inr rfl) rfl rfl, rfl⟩,
    fun hfits => ⟨_, exec_build_empty rfl rfl rfl hfits, rfl, rfl, ?_⟩,
    fun hshort => ⟨_, exec_build_empty_short rfl rfl rfl hshort, rfl, rfl⟩, ?_⟩
  · rw [← frame_empty]
    exact memRead_memWrite [] 0 (frame [] 0 [])
  · obtain ⟨t, u, f, ht, hu, htrace, -, -, hcalls, -⟩ := emptySendOnlyFlushes
      (issue .fsu (encode .send) { State.reset with fbmSize := size }) rfl rfl rfl rfl rfl
    exact ⟨t, u, f, ht, hu, htrace, hcalls⟩

/-! ### The footprint hazard (R241) -/

section
variable {s : State} {u : UnitId} {addr : Word}

theorem hostBmr_of_hazard (hin : addr.toNat < s.bufSize u.buf) (hz : s.hazard u addr.toNat = true) :
    hostBmr u addr s = s.recordFault (.footprintHazard u u.buf addr.toNat) := by
  simp [hostBmr, hin, hz]

theorem hostBmw_of_hazard (b : Byte) (hin : addr.toNat < s.bufSize u.buf) (hz : s.hazard u addr.toNat = true) :
    hostBmw u addr b s = s.recordFault (.footprintHazard u u.buf addr.toNat) := by
  simp [hostBmw, hin, hz]

/-- A host access that meets no hazard never answers the hazard's fault: outside the memory it answers a next state, and
so it does inside, unless the byte read holds no value (R186, R187). -/
theorem no_footprintHazard (b : Byte) (hm : s.mfault = none)
    (h : ¬ ((s.status u).busy = true ∧ addr.toNat < s.bufSize u.buf ∧ FootprintByte s u addr.toNat)) :
    settle (hostBmr u addr s) ≠ .fault (.footprintHazard u u.buf addr.toNat) ∧
    settle (hostBmw u addr b s) ≠ .fault (.footprintHazard u u.buf addr.toNat) := by
  obtain ⟨houtside, hinside⟩ := hostBufferAccess s u addr b hm
  obtain hout | hin := le_or_gt (s.bufSize u.buf) addr.toNat
  · obtain ⟨hbmr, hbmw⟩ := houtside hout
    simp [hbmr, hbmw]
  · obtain ⟨hvalue, hnone, m, hbmw, -⟩ := hinside hin fun ⟨hbusy, hfoot⟩ => h ⟨hbusy, hin, hfoot⟩
    cases hget : memGet (s.buf u.buf) addr.toNat with
    | none => simp [hnone hget, hbmw]
    | some v => simp [hvalue v hget, hbmw]

end

/-- Settles O45: a hazard faults both accesses, and without one neither has that fault. -/
theorem footprintHazardExactly : Obligations.FootprintHazardExactly := by
  unfold Obligations.FootprintHazardExactly
  intro s u addr b hm
  by_cases h : (s.status u).busy = true ∧ addr.toNat < s.bufSize u.buf ∧ FootprintByte s u addr.toNat
  · obtain ⟨hbusy, hin, hfoot⟩ := h
    have hz : s.hazard u addr.toNat = true := (hazard_iff hin).2 ⟨hbusy, hfoot⟩
    rw [hostBmr_of_hazard hin hz, hostBmw_of_hazard b hin hz, settle_recordFault _ hm]
    simp [hbusy, hin, hfoot]
  · obtain ⟨hbmr, hbmw⟩ := no_footprintHazard b hm h
    exact ⟨iff_of_false hbmr h, iff_of_false hbmw h⟩

/-! ### How long a SEND can last (R250) -/

/-- In its loop a step of SEND ends the command, or moves the offset on inside the frame (R152 to R154). -/
theorem SendChange.ends_or_advances {s t : State} (hp : s.phaseFsu = .writing) (h : SendChange s t) :
    (t.phaseFsu = .idle ∧ t.fsu.status.busy = false ∧ t.fsu.status.done = true) ∨
    (t.phaseFsu = .writing ∧ s.fsu.txSent.toNat < t.fsu.txSent.toNat ∧
      t.fsu.txSent.toNat ≤ s.latFsu.frmLen.toNat) := by
  cases h with
  | refused hp' _ | opened hp' _ => exact absurd hp hp'
  | accepted _ offered k _ _ hk =>
    have hlen := s.latFsu.frmLen.isLt
    have hsent : (BitVec.ofNat 32 (s.fsu.txSent.toNat + (k + 1))).toNat = s.fsu.txSent.toNat + (k + 1) :=
      (BitVec.toNat_ofNat _ _).trans (Nat.mod_eq_of_lt (by omega))
    refine .inr ⟨(takeWriteAnswer_phaseFsu s).trans hp, ?_⟩
    rw [hsent]
    omega
  | failed | flushed => exact .inl ⟨rfl, rfl, rfl⟩

/-- One FSU turn in SEND's loop: a fault, the end of the command, or a state still in the loop, from which the turns go
on, with fewer bytes left of the same frame. -/
theorem fsuTurns_writing {s : State} (hp : s.phaseFsu = .writing) (n : Nat) :
    (∃ r, fsuTurns (n + 1) s = .fault r) ∨
    (∃ t, fsuTurns (n + 1) s = .next t ∧ t.phaseFsu = .idle ∧ t.fsu.status.busy = false ∧ t.fsu.status.done = true) ∨
    (∃ t, fsuTurns (n + 1) s = fsuTurns n t ∧ t.mfault = s.mfault ∧ t.phaseFsu = .writing ∧
      t.latFsu = s.latFsu ∧ s.fsu.txSent.toNat < t.fsu.txSent.toNat ∧
      t.fsu.txSent.toNat ≤ s.latFsu.frmLen.toNat) := by
  rw [fsuTurns, fsuStep_writing hp]
  cases h : exec .send s with
  | refused r => exact absurd h (exec_not_refused .send s r)
  | fault r => exact .inl ⟨r, rfl⟩
  | next t =>
    obtain ⟨frame, -⟩ := exec_send_next h
    obtain ⟨hidle, hflags⟩ | ⟨hwriting, hoffset⟩ := (exec_send_change h).ends_or_advances hp
    · exact .inr (.inl ⟨t, by simp [hidle], hidle, hflags⟩)
    · exact .inr (.inr ⟨t, by simp [hwriting], frame.mfault, hwriting, frame.latFsu, hoffset⟩)

/-- Settles O39, by induction on the number of turns: each one that does not end the SEND leaves fewer bytes. -/
theorem sendEndsWithinItsBytes : Obligations.SendEndsWithinItsBytes := by
  unfold Obligations.SendEndsWithinItsBytes
  intro n
  induction n with
  | zero => exact fun s _ _ _ hleft => absurd hleft (Nat.not_lt_zero _)
  | succ n ih =>
    intro s hm hp hsent hleft
    obtain hfault | hend | ⟨t, hturns, hmfault, hwriting, hlatch, hmore, hinside⟩ := fsuTurns_writing hp n
    · exact .inl hfault
    · exact .inr hend
    · rw [hturns]
      refine ih t (hmfault.trans hm) hwriting ?_ ?_ <;> rw [hlatch] <;> omega

end Sys2Proof.Machine
end
